-- ==== Sys2Proof/Word.lean ====
section
/-! DEFINITION. The two word sizes of FCG: bytes (every register but one) and the 16-bit frame length. -/

namespace Sys2Proof

/-- A byte: the width of every field, cell, address and command (R7 `FIELD_W = 8`, R60). -/
abbrev Byte := BitVec 8

/-- The width of the frame length counter (R9 `FLEN_W = 16`). -/
abbrev Half := BitVec 16

end Sys2Proof
end

