-- ==== Sys2Proof/Config.lean ====
section
/-! DEFINITION. The fixed constants of R7 to R10, the parameters the spec leaves OPEN, P2 of a checksum function, and the free values. FBUF_CAP = 85 and FLEN_W = 16 (R9) are the types of FBUF and FLEN in State. -/

namespace Sys2Proof

/-- `LINE_COUNT = 4` (R7). -/
def lineCount : Nat := 4

/-- `LINE_LEN = 20` (R7). -/
def lineLen : Nat := 20

/-- The block's identity string (R2). No behaviour depends on it. -/
def identity : String := "asmit147-arduino-fcg/spec-1"

/-- `ADDR_MASTER` (R10); no operation of the block reads it. -/
def addrMaster : Byte := 0x01

/-- `ADDR_DISPLAY` (R10); no operation of the block reads it. -/
def addrDisplay : Byte := 0x02

/-- Which checksum function the machine has: the parameter `CSUM_ALG` (R8, R140).
`sum8` is the spec's default (R141); `xor8` and `crc8` are R142's; `other n` stands for any further
function of the bytes with P2, about which nothing else is known (log 1). -/
inductive CsumAlg where
  | sum8
  | xor8
  | crc8
  | other (n : Nat)
deriving DecidableEq, Repr

/-- What `F` and `FBUF` hold after reset: the parameter `RESET_VALUES` (R11, R41). -/
inductive ResetValues where
  /-- The default: every byte is `0x00`. -/
  | zero
  /-- The other choice R41 allows: every byte of `F` and `FBUF` is any value. -/
  | unspecified
deriving DecidableEq, Repr

/-- The parameters of one machine, fixed while it runs (log 1, log 2). -/
structure Config where
  csumAlg     : CsumAlg
  resetValues : ResetValues
deriving DecidableEq, Repr

/-- The spec's defaults: `SUM8` (R8) and all zero (R11). -/
def Config.default : Config := ⟨.sum8, .zero⟩

/-- Two sequences of one length differ at exactly the position `p` (R140 P2). -/
def Machine.DifferOnlyAt (p : Nat) (s t : List Byte) : Prop :=
  s.length = t.length ∧ p < s.length ∧ s[p]? ≠ t[p]? ∧ ∀ q, q ≠ p → s[q]? = t[q]?

/-- P2 (R140): for every `n` in `{4, 84}`, two sequences of length `n` that differ at exactly one
position have different checksums. -/
def Machine.DetectsSingleByte (c : List Byte → Byte) : Prop :=
  ∀ (s t : List Byte) (p : Nat),
    s.length = 4 ∨ s.length = 84 → Machine.DifferOnlyAt p s t → c s ≠ c t

/-- A checksum function R140 admits: a function of the byte sequence alone (P1) that has P2. -/
abbrev Checksum := { c : List Byte → Byte // Machine.DetectsSingleByte c }

/-- The checksum functions behind `CsumAlg.other`: of each nothing is known but that it is one of R140's
(log 1). The premise says that one exists, as a free value of this type needs; it fixes none. -/
opaque Config.otherCsum [Inhabited Checksum] (n : Nat) : Checksum

/-- The free bytes: what R201 and R41 leave unspecified, one for each draw (log 2, log 3). -/
opaque Config.freeByte : Nat → Byte

end Sys2Proof
end

