-- ==== Sys2Proof/Machine/Checksum.lean ====
section
/-! DEFINITION. The checksum functions of R140 to R142, and P2 of the one that shows there is any. -/

namespace Sys2Proof.Machine

/-- `SUM8`: the additive sum modulo 256, 0 for the empty sequence (R141). -/
def sum8 : List Byte → Byte
  | []     => 0x00
  | b :: s => b + sum8 s

/-- P2 of R140 for `SUM8` (R141): a checksum function with P2 exists, which `Config.otherCsum` asks for. -/
theorem sum8_detectsSingleByte : DetectsSingleByte sum8 := by
  suffices h : ∀ (p : Nat) (s t : List Byte), DifferOnlyAt p s t → sum8 s ≠ sum8 t from
    fun s t p _ hp => h p s t hp
  intro p
  induction p with
  | zero =>
    rintro (_ | ⟨a, s⟩) (_ | ⟨b, t⟩) ⟨hl, hp, hd, hs⟩ <;> simp at hl hp
    have e : s = t := List.ext_getElem? fun q => by simpa using hs (q + 1) (by omega)
    subst e
    simpa [sum8] using hd
  | succ p ih =>
    rintro (_ | ⟨a, s⟩) (_ | ⟨b, t⟩) ⟨hl, hp, hd, hs⟩ <;> simp at hl hp
    have e : a = b := by simpa using hs 0 (by omega)
    subst e
    have := ih s t ⟨hl, hp, by simpa using hd, fun q hq => by simpa using hs (q + 1) (by omega)⟩
    simpa [sum8] using this

/-- `XOR8`: the exclusive or of all bytes, 0 for the empty sequence (R142). -/
def xor8 : List Byte → Byte
  | []     => 0x00
  | b :: s => b ^^^ xor8 s

/-- One bit of `CRC8`: shift left, and reduce by `0x07` when bit 7 was set (R142). -/
def crcBit (c : Byte) : Byte := if c.getLsbD 7 then (c <<< 1) ^^^ 0x07 else c <<< 1

/-- `n` bits of `CRC8`. -/
def crcBits : Nat → Byte → Byte
  | 0,     c => c
  | n + 1, c => crcBits n (crcBit c)

/-- `CRC8` over a byte sequence from a running value: each byte is brought in whole, then 8 bits
(R142). -/
def crcFrom : Byte → List Byte → Byte
  | c, []     => c
  | c, b :: s => crcFrom (crcBits 8 (c ^^^ b)) s

/-- `CRC8`: polynomial `0x07`, initial value `0x00` (R142). -/
def crc8 (s : List Byte) : Byte := crcFrom 0x00 s

/-- `CSUM`: the checksum function the parameter `CSUM_ALG` names (R8, R140; log 1). A further function
is any with P2: `SUM8` tells only that one exists. -/
def csum : CsumAlg → List Byte → Byte
  | .sum8    => sum8
  | .xor8    => xor8
  | .crc8    => crc8
  | .other n => (@Config.otherCsum ⟨⟨sum8, sum8_detectsSingleByte⟩⟩ n).val

end Sys2Proof.Machine
end

