-- ==== Sys2Proof/Syntax.lean ====
section
/-! DEFINITION. Shapes, the twelve commands, the raw command word, host accesses, and the statements of R103 and R104. -/

namespace Sys2Proof

/-- The two frame shapes (R6): `M` MasterMessage, `S` SlaveMessage. -/
inductive Shape where
  | M
  | S
deriving DecidableEq, Repr

/-- The legal commands, one for each row of the opcode table (R100). Operands are implicit (R99). -/
inductive Instr where
  | nop
  | packM
  | sealM
  | unpackM
  | verifyM
  | recvM
  | rxclr
  | packS
  | sealS
  | unpackS
  | verifyS
  | recvS
deriving DecidableEq, Repr

/-- `PACK.sh` (R98). -/
def Instr.pack : Shape → Instr
  | .M => .packM
  | .S => .packS

/-- `SEAL.sh` (R98). -/
def Instr.seal : Shape → Instr
  | .M => .sealM
  | .S => .sealS

/-- `UNPACK.sh` (R98). -/
def Instr.unpack : Shape → Instr
  | .M => .unpackM
  | .S => .unpackS

/-- `VERIFY.sh` (R98). -/
def Instr.verify : Shape → Instr
  | .M => .verifyM
  | .S => .verifyS

/-- `RECV.sh` (R98). -/
def Instr.recv : Shape → Instr
  | .M => .recvM
  | .S => .recvS

/-- The fields of a command byte (R97), before any check. -/
structure CmdWord where
  /-- `RSV`, bits 7:4. -/
  rsv : BitVec 4
  /-- `SH`, bit 3. -/
  sh  : BitVec 1
  /-- `OP`, bits 2:0. -/
  op  : BitVec 3
deriving DecidableEq, Repr

/-- One host access: it moves exactly one byte (R63) at an 8-bit register address (R60). -/
inductive Access where
  | read  (addr : Byte)
  | write (addr v : Byte)
deriving DecidableEq, Repr

/-- What can reach the block from outside: a change of the input `RST` (R200) or a host access. -/
inductive Event where
  | rst  (asserted : Bool)
  | host (a : Access)
deriving DecidableEq, Repr

/-- The statements of a host program (R103) and the pseudo-statements (R104). -/
inductive Stmt where
  /-- `WR addr, v`. -/
  | wr      (addr v : Byte)
  /-- `RD addr`, with or without a name for the value. -/
  | rd      (addr : Byte)
  /-- A command by its mnemonic. -/
  | command (i : Instr)
  /-- `CMD c`: any byte, legal or not. -/
  | cmd     (c : Byte)
  /-- `PUSH v`. -/
  | push    (v : Byte)
  /-- `PUSHN n, v`. -/
  | pushN   (n : Nat) (v : Byte)
  /-- `FILL addr, n, v`. -/
  | fill    (addr : Byte) (n : Nat) (v : Byte)
  /-- `SETLEN n`. -/
  | setLen  (n : Half)
  /-- `LDFRAME s`. -/
  | ldFrame (s : List Byte)
  /-- `STATUS? -> name`. -/
  | status
deriving DecidableEq, Repr

end Sys2Proof
end

