-- ==== Sys2Proof/WellFormed.lean ====
section
/-! DEFINITION. The checks on a raw command word (R97, R98) and on a statement (R104). -/

namespace Sys2Proof

/-- `RSV` must be `0000` (R97). -/
def CmdWord.rsvClear (w : CmdWord) : Bool := w.rsv == 0#4

/-- `OP = 111` is reserved (R98). -/
def CmdWord.opAssigned (w : CmdWord) : Bool := w.op != 7#3

/-- NOP and RXCLR take no shape: `SH` must be 0 (R98). -/
def CmdWord.shapeAllowed (w : CmdWord) : Bool := w.sh == 0#1 || (w.op != 0#3 && w.op != 6#3)

/-- A command word that names an operation: it passes every check of R97 and R98. -/
def CmdWord.wellFormed (w : CmdWord) : Bool := w.rsvClear && w.opAssigned && w.shapeAllowed

/-- The bounds R104 puts on a statement: `LDFRAME s` takes at most 85 bytes; `FILL` stays inside
the register space (log 12). Every other statement is well-formed by its types. -/
def Stmt.wellFormed : Stmt → Bool
  | .fill addr n _ => decide (addr.toNat + n ≤ 256)
  | .ldFrame s     => decide (s.length ≤ 85)
  | .wr _ _        => true
  | .rd _          => true
  | .command _     => true
  | .cmd _         => true
  | .push _        => true
  | .pushN _ _     => true
  | .setLen _      => true
  | .status        => true

end Sys2Proof
end

