-- ==== Sys2Proof/Decode.lean ====
section
/-! DEFINITION. The command decoder (R102), total on every byte and rejecting by name, and after it the encoder (R97, R98, R100). -/

namespace Sys2Proof

/-- Why a command byte names no operation (R101). -/
inductive Reject where
  /-- `cmd[7:4] != 0`. -/
  | reservedBits
  /-- `OP = 111`. -/
  | reservedOp
  /-- `0x08`: NOP with `SH = 1`. -/
  | shapeOnNop
  /-- `0x0E`: RXCLR with `SH = 1`. -/
  | shapeOnRxclr
deriving DecidableEq, Repr

/-- What the decoder says of a byte: `illegal` is R102's ILLEGAL, with the reason named. -/
inductive Decoded where
  | legal   (i : Instr)
  | illegal (why : Reject)
deriving DecidableEq, Repr

/-- Cut a command byte into its fields (R97). -/
def CmdWord.ofByte (c : Byte) : CmdWord :=
  { rsv := c.extractLsb' 4 4, sh := c.extractLsb' 3 1, op := c.extractLsb' 0 3 }

/-- The shape a set or clear `SH` bit selects (R97, R102 `shape`). -/
def shapeOfBit (b : BitVec 1) : Shape := if b = 0#1 then .M else .S

/-- `decode_cmd` (R102) on the fields of a byte. -/
def CmdWord.decode (w : CmdWord) : Decoded :=
  if w.rsv ≠ 0#4 then .illegal .reservedBits
  else match w.op.toNat with
    | 0 => if w.sh = 0#1 then .legal .nop else .illegal .shapeOnNop
    | 1 => .legal (.pack (shapeOfBit w.sh))
    | 2 => .legal (.seal (shapeOfBit w.sh))
    | 3 => .legal (.unpack (shapeOfBit w.sh))
    | 4 => .legal (.verify (shapeOfBit w.sh))
    | 5 => .legal (.recv (shapeOfBit w.sh))
    | 6 => if w.sh = 0#1 then .legal .rxclr else .illegal .shapeOnRxclr
    | _ => .illegal .reservedOp

/-- `decode_cmd` (R102). -/
def decode (c : Byte) : Decoded := (CmdWord.ofByte c).decode

/-- The first command of a byte sequence and the bytes after it: every command is exactly one byte
(R97). -/
def decodeBytes : List Byte → Option (Decoded × List Byte)
  | []     => none
  | c :: s => some (decode c, s)

/-- The `SH` bit of a shape (R97). -/
def Shape.bit : Shape → BitVec 1
  | .M => 0#1
  | .S => 1#1

/-- The fields of each command (R98; the opcode table's `OP`, `SH`, `RSV`). -/
def Instr.cmdWord : Instr → CmdWord
  | .nop     => ⟨0#4, Shape.M.bit, 0b000#3⟩
  | .packM   => ⟨0#4, Shape.M.bit, 0b001#3⟩
  | .sealM   => ⟨0#4, Shape.M.bit, 0b010#3⟩
  | .unpackM => ⟨0#4, Shape.M.bit, 0b011#3⟩
  | .verifyM => ⟨0#4, Shape.M.bit, 0b100#3⟩
  | .recvM   => ⟨0#4, Shape.M.bit, 0b101#3⟩
  | .rxclr   => ⟨0#4, Shape.M.bit, 0b110#3⟩
  | .packS   => ⟨0#4, Shape.S.bit, 0b001#3⟩
  | .sealS   => ⟨0#4, Shape.S.bit, 0b010#3⟩
  | .unpackS => ⟨0#4, Shape.S.bit, 0b011#3⟩
  | .verifyS => ⟨0#4, Shape.S.bit, 0b100#3⟩
  | .recvS   => ⟨0#4, Shape.S.bit, 0b101#3⟩

/-- Put the fields of a command word back into its byte (R97). -/
def CmdWord.toByte (w : CmdWord) : Byte := w.rsv ++ w.sh ++ w.op

/-- The command byte of an instruction (R100). -/
def encode (i : Instr) : Byte := i.cmdWord.toByte

/-- An instruction is well-formed when its command word passes the checks of R97 and R98. -/
def Instr.wellFormed (i : Instr) : Bool := i.cmdWord.wellFormed

/-- The bytes of an opcode-table word of `nbits` bits, the first byte from the lowest bits. -/
def tableBytes : Nat → Nat → List Byte
  | 0,     _ => []
  | n + 1, w => BitVec.ofNat 8 w :: tableBytes n (w / 256)

/-- What the decoder reads from an opcode-table word: the instruction, where the word is one legal
command byte and nothing else (log 11). -/
def decodeTableWord (nbits w : Nat) : Option Instr :=
  if nbits % 8 = 0 then
    match decodeBytes (tableBytes (nbits / 8) w) with
    | some (.legal i, [])    => some i
    | some (.legal _, _ :: _) => none
    | some (.illegal _, _)   => none
    | none                   => none
  else none

end Sys2Proof
end

