-- ==== Sys2Proof/Machine/State.lean ====
section
/-! DEFINITION. The state record of R30, the inputs and parameters a step reads, the reset state, and the reasons a step could stop. -/

namespace Sys2Proof.Machine

/-- The result codes of `STATUS.RESULT` (R36, R181). -/
inductive Result where
  /-- Code 0. -/
  | ok
  /-- Code 1, the source's `FramingError` (R182). -/
  | framingError
  /-- Code 2, the source's `CorruptFrame` (R183). -/
  | corruptFrame
  /-- Code 3 (R184). -/
  | illegalCmd
deriving DecidableEq, Repr

/-- The machine: R30's record, then the inputs and parameters (R200, R8, R11), then the model's own
fields (logs 3, 4 and 6). -/
structure State where
  /-- `F[0x00..0x54]`, the field register bank (R31). -/
  f       : Vector Byte 85
  /-- `FBUF[0..84]`, the frame buffer (R33). -/
  fbuf    : Vector Byte 85
  /-- `FLEN`, the frame length counter (R34). -/
  flen    : Half
  /-- `CMDLAST`, the byte last written to CMD (R35). -/
  cmdlast : Byte
  /-- `STATUS.RESULT` (R36). -/
  result  : Result
  /-- `STATUS.SHAPE` (R36). -/
  shape   : Shape
  /-- `STATUS.DONE` (R36). -/
  done    : Bool
  /-- `CALC`, the checksum most recently computed (R37). -/
  calcReg : Byte
  /-- The level of the input `RST`: true while it is asserted (R200; log 7). -/
  rst     : Bool
  /-- The parameters `CSUM_ALG` and `RESET_VALUES` (R8, R11; logs 1 and 2). No step changes them. -/
  cfg     : Config
  /-- What the host and RST will do, oldest first: the program (R38; log 4). -/
  pending : List Event
  /-- The values the host's reads returned, oldest first (R103; log 6). -/
  readLog : List Byte
  /-- How many free bytes have been drawn (log 3). -/
  draws   : Nat
deriving DecidableEq, Repr

/-- The reasons a step stops with a fault: none. An FCG error is a result code in STATUS, never a
trap, and every command completes (R180, R187; log 15). Nothing raises a fault, which is safe and
leaves nothing out: the spec names none. -/
inductive Fault where
deriving DecidableEq, Repr

/-- The reasons a step has no meaning. -/
inductive Refusal where
  /-- An instruction with no meaning in this model, by its mnemonic. Only an arm of `exec` could raise
  it and none does, since every command has its meaning. Safe. -/
  | notModelled (mnemonic : String)
deriving DecidableEq, Repr

/-- The machine right after reset: every element of R41's table at the value it gives, under the
defaults of `CSUM_ALG` and `RESET_VALUES`; RST released, nothing pending, nothing read, nothing
drawn (logs 1, 2, 3, 4, 6 and 7). -/
def State.reset : State where
  f       := Vector.replicate 85 0x00
  fbuf    := Vector.replicate 85 0x00
  flen    := 0x0000
  cmdlast := 0x00
  result  := .ok
  shape   := .M
  done    := false
  calcReg := 0x00
  rst     := false
  cfg     := Config.default
  pending := []
  readLog := []
  draws   := 0

end Sys2Proof.Machine
end

