-- ==== Sys2Proof/Machine/Flags.lean ====
section
/-! DEFINITION. STATUS: the codes and bits of its fields (R36, R181) and the byte the host reads (R164). -/

namespace Sys2Proof.Machine

/-- The code of a result (R181). -/
def resultCode : Result → BitVec 2
  | .ok           => 0#2
  | .framingError => 1#2
  | .corruptFrame => 2#2
  | .illegalCmd   => 3#2

/-- `STATUS` as the host reads it: `0000 : DONE : SHAPE : RESULT` (R36, R164). -/
def statusByte (s : State) : Byte :=
  0#4 ++ BitVec.ofBool s.done ++ s.shape.bit ++ resultCode s.result

/-- The shape bit `c[3]` of a command byte, legal or not (R162, R163). -/
def shapeOfByte (c : Byte) : Shape := shapeOfBit (CmdWord.ofByte c).sh

end Sys2Proof.Machine
end

