-- ==== Sys2Proof/Machine/Operands.lean ====
section
/-! DEFINITION. The implicit operands of the commands (R16, R99, R120), the named field registers (R31), and the byte views of FLEN (R66). -/

namespace Sys2Proof.Machine

/-- The low byte, `v[7:0]`. -/
def lowByte (v : Half) : Byte := v.extractLsb' 0 8

/-- The high byte, `v[15:8]`. -/
def highByte (v : Half) : Byte := v.extractLsb' 8 8

/-- `hi:lo` (R13). -/
def joinBytes (hi lo : Byte) : Half := hi ++ lo

/-- `NF(sh)`, the number of non-checksum bytes: `4 + LINE_COUNT * LINE_LEN` for M, 4 for S (R7, R16). -/
def frameFields : Shape → Nat
  | .M => 4 + lineCount * lineLen
  | .S => 4

/-- `SIZE(sh)`: 85 for M, 5 for S (R7, R16). -/
def frameSize (sh : Shape) : Nat := frameFields sh + 1

theorem frameFields_lt (sh : Shape) : frameFields sh < 85 := by cases sh <;> decide

/-- `F[0x54]`, CHK (R31). -/
def chkReg (s : State) : Byte := s.f[0x54]

/-- `F[0x00]`, TO (R31). -/
def toReg (s : State) : Byte := s.f[0x00]

/-- `F[0x01]`, FROM (R31). -/
def fromReg (s : State) : Byte := s.f[0x01]

/-- `F[0x02]`, INPUTS (R31). -/
def inputsReg (s : State) : Byte := s.f[0x02]

/-- `F[0x03]`, OUTPUTS (R31). -/
def outputsReg (s : State) : Byte := s.f[0x03]

/-- `LINE[k][j]`, which is `F[0x04 + 20*k + j]` (R31). -/
def lineReg (k : Fin 4) (j : Fin 20) (s : State) : Byte :=
  s.f[0x04 + 20 * k.val + j.val]'(by have := k.isLt; have := j.isLt; omega)

/-- `FIELDS(sh)`: the non-checksum field bytes in frame order (R16). -/
def fieldBytes (sh : Shape) (s : State) : List Byte := s.f.toList.take (frameFields sh)

/-- `IMG(sh)`: the frame image of the field registers (R16, R120). -/
def frameImage (sh : Shape) (s : State) : List Byte := fieldBytes sh s ++ [chkReg s]

/-- `RX(sh)`: the received non-checksum bytes (R16). -/
def rxBytes (sh : Shape) (s : State) : List Byte := s.fbuf.toList.take (frameFields sh)

/-- `FBUF[NF(sh)]`: the received checksum byte (R16). -/
def rxCheck (sh : Shape) (s : State) : Byte := s.fbuf[frameFields sh]'(frameFields_lt sh)

/-- The whole frame of shape `sh` in the buffer, `FBUF[0..SIZE(sh)-1]` (R17, R33). -/
def frameBytes (sh : Shape) (s : State) : List Byte := s.fbuf.toList.take (frameSize sh)

end Sys2Proof.Machine
end

