-- ==== Sys2Proof/Machine/Ops.lean ====
section
/-! DEFINITION. The named operations over the state: one update per element, the command prologue, `raise`, the register reads, RXPUSH, and reset. -/

namespace Sys2Proof.Machine

/-! One update for each element of the state. -/

def State.setF (s : State) (v : Vector Byte 85) : State := { s with f := v }
def State.setFbuf (s : State) (v : Vector Byte 85) : State := { s with fbuf := v }
def State.setFlen (s : State) (v : Half) : State := { s with flen := v }
def State.setCmdlast (s : State) (v : Byte) : State := { s with cmdlast := v }
def State.setResult (s : State) (v : Result) : State := { s with result := v }
def State.setShape (s : State) (v : Shape) : State := { s with shape := v }
def State.setDone (s : State) (v : Bool) : State := { s with done := v }
def State.setCalc (s : State) (v : Byte) : State := { s with calcReg := v }
def State.setRst (s : State) (v : Bool) : State := { s with rst := v }
def State.setPending (s : State) (v : List Event) : State := { s with pending := v }
def State.setReadLog (s : State) (v : List Byte) : State := { s with readLog := v }
def State.setDraws (s : State) (v : Nat) : State := { s with draws := v }

/-! Arithmetic and byte banks. -/

/-- `sat_inc16` (R14, R167): the increment that stays at `0xFFFF`. -/
def satInc16 (n : Half) : Half := if n = 0xFFFF then 0xFFFF else n + 1

/-- Write a byte sequence into a bank from index 0 on: cell `i` takes `bs[i]` where there is one, and
every further cell keeps its value. -/
def storeBytes (v : Vector Byte n) (bs : List Byte) : Vector Byte n :=
  Vector.ofFn fun i => bs.getD i.val v[i]

/-! Command results. -/

/-- What the prologue writes for every command: `CMDLAST <- c`, `STATUS.DONE <- 1` (R163). -/
def recordCommand (c : Byte) (s : State) : State := (s.setCmdlast c).setDone true

/-- The prologue of every command but NOP: as `recordCommand`, and `STATUS.SHAPE <- c[3]` (R163). -/
def beginCommand (c : Byte) (s : State) : State := (recordCommand c s).setShape (shapeOfByte c)

/-- `raise E` (R14, R180): `STATUS.RESULT <- code(E)`, and the command ends. FCG's one way of taking
an error: nothing is saved and nothing is entered (R187). -/
def raise (e : Result) (s : State) : State := s.setResult e

/-- A command that completes: `STATUS.RESULT <- 0`. -/
def complete (s : State) : State := s.setResult .ok

/-! Register reads and RXPUSH. -/

/-- The addresses up to `0xD4` reach no cell beyond the last (R61). -/
theorem cellIndex_lt {a : Nat} (h : a ≤ 0xD4) : a - 0x80 < 85 := by
  omega

/-- `F[a]` (R14, R164). -/
def readField (a : Nat) (h : a < 85) (s : State) : Byte := s.f[a]

/-- `FBUF[i]` (R14, R164). -/
def readCell (i : Nat) (h : i < 85) (s : State) : Byte := s.fbuf[i]

/-- `mem_read` (R164): what a host read of a register address returns. -/
def memRead (s : State) (addr : Byte) : Byte :=
  if h : addr.toNat ≤ 0x54 then readField addr.toNat (Nat.lt_succ_of_le h) s
  else if addr = 0x60 then s.cmdlast
  else if addr = 0x61 then statusByte s
  else if addr = 0x62 then s.calcReg
  else if addr = 0x63 then lowByte s.flen
  else if addr = 0x64 then highByte s.flen
  else if addr = 0x65 then 0x00
  else if h : 0x80 ≤ addr.toNat ∧ addr.toNat ≤ 0xD4 then
    readCell (addr.toNat - 0x80) (cellIndex_lt h.2) s
  else 0x00

/-- `F[a] <- v` (R14, R165). -/
def writeField (a : Nat) (h : a < 85) (v : Byte) (s : State) : State := s.setF (s.f.set a v h)

/-- `FBUF[i] <- v` (R14, R165). -/
def writeCell (i : Nat) (h : i < 85) (v : Byte) (s : State) : State :=
  s.setFbuf (s.fbuf.set i v h)

/-- `rx_push` (R166): append a received byte, counting it even where no cell is left. -/
def rxPush (v : Byte) (s : State) : State :=
  (if h : s.flen.toNat < 85 then writeCell s.flen.toNat h v s else s).setFlen (satInc16 s.flen)

/-- The value a host read returned, put with the earlier ones (R103; log 6). -/
def answer (v : Byte) (s : State) : State := s.setReadLog (s.readLog ++ [v])

/-- Draw a free byte and answer it (log 3). -/
def answerFree (s : State) : State := (answer (Config.freeByte s.draws) s).setDraws (s.draws + 1)

/-! Reset. -/

/-- What a byte bank holds after reset (R41): zeros, or a free byte for each cell, drawn from the
counter's value `d` on (log 2). -/
def resetBank (r : ResetValues) (d n : Nat) : Vector Byte n :=
  match r with
  | .zero        => Vector.replicate n 0x00
  | .unspecified => Vector.ofFn fun i => Config.freeByte (d + i.val)

/-- How many free bytes one reset draws (log 2). -/
def resetDraws : ResetValues → Nat
  | .zero        => 0
  | .unspecified => 85 + 85

/-- RST asserted (R200, R201): every element of the state record takes its reset value (R41) in one
step, from any state. What is not of the block stays: its parameters, the host's further accesses,
and the values the host has read. -/
def assertRst (s : State) : State :=
  { State.reset with
    f       := resetBank s.cfg.resetValues s.draws 85
    fbuf    := resetBank s.cfg.resetValues (s.draws + 85) 85
    rst     := true
    cfg     := s.cfg
    pending := s.pending
    readLog := s.readLog
    draws   := s.draws + resetDraws s.cfg.resetValues }

/-- RST released (R201): the first access after it sees the reset state. -/
def releaseRst (s : State) : State := s.setRst false

end Sys2Proof.Machine
end

