-- ==== Sys2Proof/Machine/Codec.lean ====
section
/-! DEFINITION. The Frame Codec commands: PACK and UNPACK (R121 to R124). -/

namespace Sys2Proof.Machine

/-- The body of `PACK.sh` (R121, R122): the frame image into `FBUF`, `FLEN <- SIZE(sh)`, no error. -/
def packBody (sh : Shape) (s : State) : State :=
  complete ((s.setFbuf (storeBytes s.fbuf (frameImage sh s))).setFlen (BitVec.ofNat 16 (frameSize sh)))

/-- The field registers taken from the frame in `FBUF`: the non-checksum bytes positionally, and the
checksum byte into CHK (R123, R124). -/
def loadFields (sh : Shape) (s : State) : State :=
  s.setF ((storeBytes s.f (rxBytes sh s)).set 0x54 (rxCheck sh s))

/-- The length check of R182: `FramingError` unless `FLEN = SIZE(sh)`, else the rest of the command. -/
def checkLength (sh : Shape) (rest : State → State) (s : State) : State :=
  if s.flen.toNat = frameSize sh then rest s else raise .framingError s

/-- The body of `UNPACK.sh` (R123, R124): no checksum is looked at. -/
def unpackBody (sh : Shape) (s : State) : State :=
  checkLength sh (fun s => complete (loadFields sh s)) s

/-- `PACK.M` (R121). -/
def execPackM (s : State) : Host.Outcome State Fault Refusal :=
  .next (packBody .M (beginCommand (encode .packM) s))

/-- `PACK.S` (R122). -/
def execPackS (s : State) : Host.Outcome State Fault Refusal :=
  .next (packBody .S (beginCommand (encode .packS) s))

/-- `UNPACK.M` (R123). -/
def execUnpackM (s : State) : Host.Outcome State Fault Refusal :=
  .next (unpackBody .M (beginCommand (encode .unpackM) s))

/-- `UNPACK.S` (R124). -/
def execUnpackS (s : State) : Host.Outcome State Fault Refusal :=
  .next (unpackBody .S (beginCommand (encode .unpackS) s))

end Sys2Proof.Machine
end

