-- ==== Sys2Proof/Machine/Control.lean ====
section
/-! DEFINITION. The commands that move no frame: NOP, RXCLR, and ILLEGAL (R160 to R162). -/

namespace Sys2Proof.Machine

/-- `NOP` (R160): only CMDLAST and DONE; RESULT and SHAPE keep what the last other command left. -/
def execNop (s : State) : Host.Outcome State Fault Refusal :=
  .next (recordCommand (encode .nop) s)

/-- `RXCLR` (R161): `FLEN <- 0`. -/
def execRxclr (s : State) : Host.Outcome State Fault Refusal :=
  .next (complete ((beginCommand (encode .rxclr) s).setFlen 0x0000))

/-- `ILLEGAL` (R162): what any of the 244 illegal bytes does. -/
def execIllegal (c : Byte) (s : State) : Host.Outcome State Fault Refusal :=
  .next (raise .illegalCmd (beginCommand c s))

end Sys2Proof.Machine
end

