-- ==== Sys2Proof/Machine/Integrity.lean ====
section
/-! DEFINITION. The Integrity Guard commands: SEAL, VERIFY and RECV (R143 to R149). -/

namespace Sys2Proof.Machine

/-- `CSUM(FIELDS(sh))`: the checksum SEAL computes (R143). -/
def fieldCsum (sh : Shape) (s : State) : Byte := csum s.cfg.csumAlg (fieldBytes sh s)

/-- `CSUM(RX(sh))`: the checksum VERIFY and RECV recompute (R143). -/
def rxCsum (sh : Shape) (s : State) : Byte := csum s.cfg.csumAlg (rxBytes sh s)

/-- The body of `SEAL.sh` (R144, R145): CHK and CALC take the checksum of the fields. -/
def sealBody (sh : Shape) (s : State) : State :=
  complete ((writeField 0x54 (by decide) (fieldCsum sh s) s).setCalc (fieldCsum sh s))

/-- The checksum check of R183: CALC takes the recomputed value, then `CorruptFrame` unless it is the
received one, else the rest of the command. -/
def checkCsum (sh : Shape) (rest : State → State) (s : State) : State :=
  if rxCsum sh s = rxCheck sh s then rest (s.setCalc (rxCsum sh s))
  else raise .corruptFrame (s.setCalc (rxCsum sh s))

/-- The body of `VERIFY.sh` (R146, R147): the length first (R186), then the checksum. -/
def verifyBody (sh : Shape) (s : State) : State := checkLength sh (checkCsum sh complete) s

/-- The body of `RECV.sh` (R148, R149): as VERIFY, and the fields only from a valid frame. -/
def recvBody (sh : Shape) (s : State) : State :=
  checkLength sh (checkCsum sh fun s => complete (loadFields sh s)) s

/-- `SEAL.M` (R144). -/
def execSealM (s : State) : Host.Outcome State Fault Refusal :=
  .next (sealBody .M (beginCommand (encode .sealM) s))

/-- `SEAL.S` (R145). -/
def execSealS (s : State) : Host.Outcome State Fault Refusal :=
  .next (sealBody .S (beginCommand (encode .sealS) s))

/-- `VERIFY.M` (R146). -/
def execVerifyM (s : State) : Host.Outcome State Fault Refusal :=
  .next (verifyBody .M (beginCommand (encode .verifyM) s))

/-- `VERIFY.S` (R147). -/
def execVerifyS (s : State) : Host.Outcome State Fault Refusal :=
  .next (verifyBody .S (beginCommand (encode .verifyS) s))

/-- `RECV.M` (R148). -/
def execRecvM (s : State) : Host.Outcome State Fault Refusal :=
  .next (recvBody .M (beginCommand (encode .recvM) s))

/-- `RECV.S` (R149). -/
def execRecvS (s : State) : Host.Outcome State Fault Refusal :=
  .next (recvBody .S (beginCommand (encode .recvS) s))

end Sys2Proof.Machine
end

