-- ==== Sys2Proof/Machine/Dispatch.lean ====
section
/-! DEFINITION. The command dispatch of R163: one arm for each command, each a whole command with its prologue. -/

namespace Sys2Proof.Machine

def exec (i : Instr) (s : State) : Host.Outcome State Fault Refusal :=
  match i with
  | .nop => Sys2Proof.Machine.execNop s
  | .packM => Sys2Proof.Machine.execPackM s
  | .sealM => Sys2Proof.Machine.execSealM s
  | .unpackM => Sys2Proof.Machine.execUnpackM s
  | .verifyM => Sys2Proof.Machine.execVerifyM s
  | .recvM => Sys2Proof.Machine.execRecvM s
  | .rxclr => Sys2Proof.Machine.execRxclr s
  | .packS => Sys2Proof.Machine.execPackS s
  | .sealS => Sys2Proof.Machine.execSealS s
  | .unpackS => Sys2Proof.Machine.execUnpackS s
  | .verifyS => Sys2Proof.Machine.execVerifyS s
  | .recvS => Sys2Proof.Machine.execRecvS s

end Sys2Proof.Machine
end

