-- ==== Sys2Proof/Machine/Port.lean ====
section
/-! DEFINITION. The host port: the CMD write (R163), the host write (R165), and what reaches the block while RST is asserted (R201). -/

namespace Sys2Proof.Machine

/-- `cmd_write` (R163): decode the byte and run its command, or ILLEGAL (R162). -/
def cmdWrite (c : Byte) (s : State) : Host.Outcome State Fault Refusal :=
  match decode c with
  | .legal i   => exec i s
  | .illegal _ => execIllegal c s

/-- `mem_write` (R165): what a host write to a register address does. -/
def memWrite (addr v : Byte) (s : State) : Host.Outcome State Fault Refusal :=
  if h : addr.toNat ≤ 0x54 then .next (writeField addr.toNat (Nat.lt_succ_of_le h) v s)
  else if addr = 0x60 then cmdWrite v s
  else if addr = 0x61 ∨ addr = 0x62 then .next s
  else if addr = 0x63 then .next (s.setFlen (joinBytes (highByte s.flen) v))
  else if addr = 0x64 then .next (s.setFlen (joinBytes v (lowByte s.flen)))
  else if addr = 0x65 then .next (rxPush v s)
  else if h : 0x80 ≤ addr.toNat ∧ addr.toNat ≤ 0xD4 then
    .next (writeCell (addr.toNat - 0x80) (cellIndex_lt h.2) v s)
  else .next s

/-- A host access performed by the block: a read answers and changes nothing of the block (R164). -/
def hostAccess (a : Access) (s : State) : Host.Outcome State Fault Refusal :=
  match a with
  | .read addr    => .next (answer (memRead s addr) s)
  | .write addr v => memWrite addr v s

/-- A host access while RST is asserted (R201): the block performs none; a read returns an
unspecified value and a write is lost. -/
def accessInReset (a : Access) (s : State) : State :=
  match a with
  | .read _    => answerFree s
  | .write _ _ => s

/-- One event at the block's inputs, in one atomic step (R69, R201). -/
def handleEvent (e : Event) (s : State) : Host.Outcome State Fault Refusal :=
  match e with
  | .rst true  => .next (assertRst s)
  | .rst false => .next (releaseRst s)
  | .host a    => if s.rst then .next (accessInReset a s) else hostAccess a s

/-- What the host port brings next: the oldest pending event taken off the list, or nothing, and then
the block holds its state (R193; log 5). -/
def nextEvent (s : State) : Option (Event × State) :=
  match s.pending with
  | []        => none
  | e :: rest => some (e, s.setPending rest)

/-- Put a command byte where the next step takes its event: as the oldest pending event, a write to
CMD, with RST released so that it is performed (log 4). -/
def placeCommand (c : Byte) (s : State) : State :=
  (s.setPending (.host (.write 0x60 c) :: s.pending)).setRst false

end Sys2Proof.Machine
end

