-- ==== Sys2Proof/Machine/Step.lean ====
section
/-! DEFINITION. One step: the next pending event, or an idle step; and where the host's probe places a command. -/

namespace Sys2Proof.Machine

/-- One step of the machine: one host access or RST change, performed whole (R69, R70). -/
def step (s : State) : Host.Outcome State Fault Refusal :=
  match nextEvent s with
  | none         => .next s
  | some (e, s') => handleEvent e s'

/-- `s` with the opcode-table word `w` as the command byte of the next step's CMD write. Every command
is one byte (R97), so the word's first byte is the whole command (logs 4 and 11). -/
def State.withFetchWord (s : State) (nbits w : Nat) : State :=
  placeCommand (BitVec.ofNat 8 (w % 2 ^ nbits)) s

end Sys2Proof.Machine
end

