-- ==== Sys2Proof/Machine/Assembler.lean ====
section
/-! DEFINITION. The host accesses that each statement of R103 and R104 stands for. -/

namespace Sys2Proof.Machine

/-- `PUSH v` (R104): a write to RXPUSH. -/
def pushAccess (v : Byte) : Access := .write 0x65 v

/-- `CMD c` (R104): a write to CMD. -/
def cmdAccess (c : Byte) : Access := .write 0x60 c

/-- `FILL addr, n, v` (R104): `n` writes at rising addresses. -/
def fillAccesses (addr : Byte) (n : Nat) (v : Byte) : List Access :=
  (List.range n).map fun i => .write (addr + BitVec.ofNat 8 i) v

/-- The expansion of a statement (R103, R104). -/
def expand : Stmt → List Access
  | .wr addr v     => [.write addr v]
  | .rd addr       => [.read addr]
  | .command i     => [cmdAccess (encode i)]
  | .cmd c         => [cmdAccess c]
  | .push v        => [pushAccess v]
  | .pushN n v     => List.replicate n (pushAccess v)
  | .fill addr n v => fillAccesses addr n v
  | .setLen n      => [.write 0x63 (lowByte n), .write 0x64 (highByte n)]
  | .ldFrame s     => cmdAccess (encode .rxclr) :: s.map pushAccess
  | .status        => [.read 0x61]

/-- A host program as the accesses it makes, in order (R103). -/
def assemble (p : List Stmt) : List Access := p.flatMap expand

/-- A host program as what arrives at the host port. -/
def hostEvents (p : List Stmt) : List Event := (assemble p).map .host

end Sys2Proof.Machine
end

