-- ==== Sys2Proof/Safety.lean ====
section
/-! DEFINITION. What claims call a safe run and a good state: no access during reset, STATUS telling the last command's outcome, sealed fields, valid frames. -/

namespace Sys2Proof.Machine

/-- No host access arrives while RST is asserted, from the level `asserted` on: the premise D30 asks of
a claim about a run. -/
def quietReset : Bool → List Event → Bool
  | _,        []              => true
  | _,        .rst level :: r => quietReset level r
  | asserted, .host _ :: r    => !asserted && quietReset asserted r

/-- The results a command can leave in STATUS (R181 "raised by"; R182, R183). NOP leaves RESULT as it
is, so every result is possible after it (R160). -/
def possibleResults : Instr → List Result
  | .nop                                     => [.ok, .framingError, .corruptFrame, .illegalCmd]
  | .packM | .packS | .sealM | .sealS | .rxclr => [.ok]
  | .unpackM | .unpackS                      => [.ok, .framingError]
  | .verifyM | .verifyS | .recvM | .recvS    => [.ok, .framingError, .corruptFrame]

/-- STATUS and CMDLAST tell the last command's outcome: a legal command other than NOP left its own
`SH` and a result it can report, an illegal byte left ILLEGAL_CMD and its bit 3 (R36, R163, R181). -/
def statusTellsCommand (s : State) : Bool :=
  match decode s.cmdlast with
  | .legal .nop => true
  | .legal i    => (possibleResults i).contains s.result && s.shape == shapeOfByte s.cmdlast
  | .illegal _  => s.result == .illegalCmd && s.shape == shapeOfByte s.cmdlast

/-- DONE clear tells that no command has run since reset (R41): STATUS, CMDLAST and CALC hold their
reset values. -/
def freshUntilDone (s : State) : Bool :=
  s.done || (s.cmdlast == 0x00 && s.result == .ok && s.shape == .M && s.calcReg == 0x00)

/-- While RST is asserted no command has run and nothing has been received (R201). -/
def quietWhileReset (s : State) : Bool := !s.rst || (!s.done && s.flen == 0x0000)

/-- The invariant every step keeps. -/
def consistent (s : State) : Bool := statusTellsCommand s && freshUntilDone s && quietWhileReset s

/-- The fields of shape `sh` carry their checksum in CHK: what a PACK needs of the fields (R204). -/
abbrev Sealed (sh : Shape) (s : State) : Prop := chkReg s = fieldCsum sh s

/-- The buffer holds a valid frame of shape `sh`: its length and its checksum are right (R182, R183). -/
abbrev ValidFrame (sh : Shape) (s : State) : Prop :=
  s.flen.toNat = frameSize sh ∧ rxCsum sh s = rxCheck sh s

end Sys2Proof.Machine
end

