-- ==== Sys2Proof/Certificates/Slice0/Obligations.lean ====
section
/-! DEFINITION. The statements for the provers. A statement "over all states" is also over every choice of the parameters `CSUM_ALG` and `RESET_VALUES`, since State carries them (logs 1 and 2). -/

open Sys2Proof Sys2Proof.Machine

namespace Sys2Proof.Claims

/-- What is not of the block stays: RST, the parameters, the host's further accesses, the values read
so far, and the draw counter. -/
def PortUnchanged (s t : State) : Prop :=
  t.rst = s.rst ∧ t.cfg = s.cfg ∧ t.pending = s.pending ∧ t.readLog = s.readLog ∧ t.draws = s.draws

/-- `STATUS` (RESULT, SHAPE, DONE) stays (R36). -/
def StatusUnchanged (s t : State) : Prop :=
  t.result = s.result ∧ t.shape = s.shape ∧ t.done = s.done

/-- The whole state record of R30 stays. -/
def BlockUnchanged (s t : State) : Prop :=
  t.f = s.f ∧ t.fbuf = s.fbuf ∧ t.flen = s.flen ∧ t.cmdlast = s.cmdlast ∧ StatusUnchanged s t ∧
    t.calcReg = s.calcReg

/-- The elements of R41's table that hold their reset value for every choice of RESET_VALUES. -/
def ControlAtReset (t : State) : Prop :=
  t.flen = 0x0000 ∧ t.cmdlast = 0x00 ∧ statusByte t = 0x00 ∧ t.result = .ok ∧ t.shape = .M ∧
    t.done = false ∧ t.calcReg = 0x00

/-- The register addresses the host can write and read back (R61): F, FLENL, FLENH and FBUF. -/
def ReadWrite (a : Byte) : Prop :=
  a.toNat ≤ 0x54 ∨ a = 0x63 ∨ a = 0x64 ∨ (0x80 ≤ a.toNat ∧ a.toNat ≤ 0xD4)

/-- The reserved register addresses (R62). -/
def Reserved (a : Byte) : Prop :=
  (0x55 ≤ a.toNat ∧ a.toNat ≤ 0x5F) ∨ (0x66 ≤ a.toNat ∧ a.toNat ≤ 0x7F) ∨ 0xD5 ≤ a.toNat

/-- The field registers of shape `sh` hold the same in two states: the first `NF(sh)` and CHK. -/
def SameFields (sh : Shape) (s t : State) : Prop :=
  (∀ i : Fin 85, i.val < frameFields sh → t.f[i] = s.f[i]) ∧ t.f[0x54] = s.f[0x54]

/-- The command may report a length or checksum error: UNPACK, VERIFY and RECV in shape `sh` (R181). -/
def ChecksLength (sh : Shape) (i : Instr) : Prop := i = .unpack sh ∨ i = .verify sh ∨ i = .recv sh

/-- The command looks at the checksum: VERIFY and RECV in shape `sh` (R181). -/
def ChecksCsum (sh : Shape) (i : Instr) : Prop := i = .verify sh ∨ i = .recv sh

/-- The byte is one of R101's illegal ones, as the decoder sees it. -/
def illegalByte (c : Byte) : Bool :=
  match decode c with
  | .legal _   => false
  | .illegal _ => true

end Sys2Proof.Claims

open Sys2Proof.Claims

/-! ## Command bytes and their decoding -/

/-- R100, R102: decoding a command's byte gives the command, and no other byte decodes to it. -/
def Obligations.EncodeIsTheOnlyByteOfACommand : Prop :=
  ∀ i : Instr, i.wellFormed = true ∧ decode (encode i) = .legal i ∧
    ∀ c : Byte, decode c = .legal i → c = encode i

/-- R100: the opcode map, byte by byte, and no legal byte beside its twelve. -/
def Obligations.OpcodeMapHasTwelveBytes : Prop :=
  decode 0x00 = .legal .nop ∧ decode 0x01 = .legal .packM ∧ decode 0x02 = .legal .sealM ∧
  decode 0x03 = .legal .unpackM ∧ decode 0x04 = .legal .verifyM ∧ decode 0x05 = .legal .recvM ∧
  decode 0x06 = .legal .rxclr ∧ decode 0x09 = .legal .packS ∧ decode 0x0A = .legal .sealS ∧
  decode 0x0B = .legal .unpackS ∧ decode 0x0C = .legal .verifyS ∧ decode 0x0D = .legal .recvS ∧
  ∀ c : Byte, (∃ i, decode c = .legal i) ↔
    c ∈ [0x00, 0x01, 0x02, 0x03, 0x04, 0x05, 0x06, 0x09, 0x0A, 0x0B, 0x0C, 0x0D]

/-- R98: the operation each `OP` names, for both values of `SH`, with `RSV` zero. -/
def Obligations.OpFieldNamesTheOperation : Prop :=
  (∀ sh : Shape,
    decode (CmdWord.toByte ⟨0, sh.bit, 0b001⟩) = .legal (.pack sh) ∧
    decode (CmdWord.toByte ⟨0, sh.bit, 0b010⟩) = .legal (.seal sh) ∧
    decode (CmdWord.toByte ⟨0, sh.bit, 0b011⟩) = .legal (.unpack sh) ∧
    decode (CmdWord.toByte ⟨0, sh.bit, 0b100⟩) = .legal (.verify sh) ∧
    decode (CmdWord.toByte ⟨0, sh.bit, 0b101⟩) = .legal (.recv sh) ∧
    ∀ i, decode (CmdWord.toByte ⟨0, sh.bit, 0b111⟩) ≠ .legal i) ∧
  decode (CmdWord.toByte ⟨0, 0, 0b000⟩) = .legal .nop ∧
  decode (CmdWord.toByte ⟨0, 0, 0b110⟩) = .legal .rxclr ∧
  (∀ i, decode (CmdWord.toByte ⟨0, 1, 0b000⟩) ≠ .legal i) ∧
  (∀ i, decode (CmdWord.toByte ⟨0, 1, 0b110⟩) ≠ .legal i)

/-- R101, R162, R184: which bytes are illegal, how many, and everything that writing one to CMD does. -/
def Obligations.IllegalByteOnlyRecordsItself : Prop :=
  (∀ c : Byte, illegalByte c = true ↔
    (c.extractLsb' 4 4 ≠ 0 ∨ c.extractLsb' 0 3 = 7#3 ∨ c = 0x08 ∨ c = 0x0E)) ∧
  ((List.range 256).filter fun n => illegalByte (BitVec.ofNat 8 n)).length = 244 ∧
  (∀ (c : Byte) (s : State), illegalByte c = true →
    ∃ t, cmdWrite c s = .next t ∧ t.cmdlast = c ∧ t.result = .illegalCmd ∧ t.done = true ∧
      t.shape = (if c.getLsbD 3 then .S else .M) ∧
      t.f = s.f ∧ t.fbuf = s.fbuf ∧ t.flen = s.flen ∧ t.calcReg = s.calcReg ∧ PortUnchanged s t)

/-! ## Steps -/

/-- R163, R69: a step whose event is a CMD write runs the decoded command, and runs ILLEGAL for a byte
that decodes to none; nothing is added around the command but taking the event. The list of pending
events is the model's own (log 4). -/
def Obligations.StepRunsTheDecodedCommand : Prop :=
  ∀ (s : State) (c : Byte) (rest : List Event),
    s.rst = false → s.pending = .host (.write 0x60 c) :: rest →
    (∀ i, decode c = .legal i → step s = exec i (s.setPending rest)) ∧
    (∀ why, decode c = .illegal why → step s = execIllegal c (s.setPending rest))

/-- R69, R164, R165: a step whose event is a host access performs it: a read answers with the
register's value and changes nothing of the block, a write does what the write map says. The pending
events and the read log are the model's own (logs 4 and 6). -/
def Obligations.StepPerformsTheHostAccess : Prop :=
  ∀ (s : State) (rest : List Event), s.rst = false →
    (∀ a, s.pending = .host (.read a) :: rest →
      ∃ t, step s = .next t ∧ t.readLog = s.readLog ++ [memRead s a] ∧ BlockUnchanged s t ∧
        t.pending = rest ∧ t.rst = false ∧ t.cfg = s.cfg ∧ t.draws = s.draws) ∧
    (∀ a v, s.pending = .host (.write a v) :: rest → step s = memWrite a v (s.setPending rest))

/-- R193 (log 5: the model's reading): with nothing pending the block holds its whole state. -/
def Obligations.IdleStepHoldsState : Prop :=
  ∀ s : State, s.pending = [] → step s = .next s

/-- R69, R70, R180, R213: accesses are performed one at a time, in the host's order, and no error and no
wait stops the block. The model's form of it, not the spec's words: from every state a step answers a
next state (log 15), it takes exactly the oldest pending event (log 4), and with none pending it is an
idle step (log 5). -/
def Obligations.EveryStepTakesOneEvent : Prop :=
  ∀ s : State, ∃ t, step s = .next t ∧ t.pending = s.pending.tail

/-- R163: the CMD write, its prologue and its dispatch. -/
def Obligations.CmdWriteRunsPrologueAndBody : Prop :=
  ∀ (c : Byte) (s : State),
    (∀ i, decode c = .legal i → cmdWrite c s = exec i s) ∧
    (∀ why, decode c = .illegal why → cmdWrite c s = execIllegal c s) ∧
    ∃ t, cmdWrite c s = .next t ∧ t.cmdlast = c ∧ t.done = true ∧
      t.shape = (if c = 0x00 then s.shape else if c.getLsbD 3 then .S else .M) ∧
      PortUnchanged s t

/-! ## Reset -/

/-- R41: the reset value of every element, under the default of RESET_VALUES, and of those that keep
it in every choice. -/
def Obligations.ResetValuesOfEveryElement : Prop :=
  (∀ i : Fin 85, State.reset.f[i] = 0x00) ∧ (∀ i : Fin 85, State.reset.fbuf[i] = 0x00) ∧
  ControlAtReset State.reset ∧
  ∀ s : State, ControlAtReset (assertRst s) ∧
    (s.cfg.resetValues = .zero →
      (∀ i : Fin 85, (assertRst s).f[i] = 0x00) ∧ ∀ i : Fin 85, (assertRst s).fbuf[i] = 0x00)

/-- R201, R41: asserting RST resets in one step from any state; while it is asserted a write is lost and
a read answers some value, and neither changes the block; releasing it leaves the reset state. The
model's choices: the list of pending events (log 4), the read log the value goes to (log 6), and RST
changes as events in that list (log 7). -/
def Obligations.RstResetsAndShutsThePort : Prop :=
  ∀ (s : State) (rest : List Event),
    (s.pending = .rst true :: rest →
      ∃ t, step s = .next t ∧ ControlAtReset t ∧ t.rst = true ∧ t.pending = rest ∧
        (s.cfg.resetValues = .zero → t.f = State.reset.f ∧ t.fbuf = State.reset.fbuf)) ∧
    (∀ a v, s.rst = true → s.pending = .host (.write a v) :: rest →
      ∃ t, step s = .next t ∧ BlockUnchanged s t ∧ t.readLog = s.readLog ∧ t.rst = true ∧
        t.pending = rest) ∧
    (∀ a, s.rst = true → s.pending = .host (.read a) :: rest →
      ∃ t v, step s = .next t ∧ BlockUnchanged s t ∧ t.readLog = s.readLog ++ [v] ∧ t.rst = true ∧
        t.pending = rest) ∧
    (s.pending = .rst false :: rest →
      ∃ t, step s = .next t ∧ BlockUnchanged s t ∧ t.rst = false ∧ t.pending = rest)

/-- R200: nothing but the input RST takes DONE back to 0; there is no software reset. -/
def Obligations.OnlyRstClearsDone : Prop :=
  ∀ s t : State, step s = .next t → s.done = true → t.done = false →
    ∃ rest, s.pending = .rst true :: rest

/-! ## Frame Codec -/

/-- R121: PACK.M completes from every state. -/
def Obligations.PackMSerialisesTheBank : Prop :=
  ∀ s : State, ∃ t, exec .packM s = .next t ∧
    (∀ i : Fin 85, t.fbuf[i] = s.f[i]) ∧ t.flen = 85 ∧
    t.result = .ok ∧ t.shape = .M ∧ t.done = true ∧ statusByte t = 0x08 ∧ t.cmdlast = 0x01 ∧
    t.f = s.f ∧ t.calcReg = s.calcReg ∧ PortUnchanged s t

/-- R122: PACK.S completes from every state; FBUF[4] takes CHK, and FBUF[5..84] stay. -/
def Obligations.PackSSerialisesFiveBytes : Prop :=
  ∀ s : State, ∃ t, exec .packS s = .next t ∧
    (∀ i : Fin 85, i.val < 4 → t.fbuf[i] = s.f[i]) ∧ t.fbuf[4] = s.f[0x54] ∧
    (∀ i : Fin 85, 5 ≤ i.val → t.fbuf[i] = s.fbuf[i]) ∧ t.flen = 5 ∧
    t.result = .ok ∧ t.shape = .S ∧ t.done = true ∧ statusByte t = 0x0C ∧ t.cmdlast = 0x09 ∧
    t.f = s.f ∧ t.calcReg = s.calcReg ∧ PortUnchanged s t

/-- R123: UNPACK.M completes from every state: the frame's bytes, unchecked, or FramingError. -/
def Obligations.UnpackMLoadsTheBankOrNothing : Prop :=
  ∀ s : State, ∃ t, exec .unpackM s = .next t ∧
    (s.flen = 85 → (∀ i : Fin 85, t.f[i] = s.fbuf[i]) ∧ t.result = .ok ∧ statusByte t = 0x08) ∧
    (s.flen ≠ 85 → t.f = s.f ∧ t.result = .framingError ∧ statusByte t = 0x09) ∧
    t.shape = .M ∧ t.done = true ∧ t.cmdlast = 0x03 ∧
    t.fbuf = s.fbuf ∧ t.flen = s.flen ∧ t.calcReg = s.calcReg ∧ PortUnchanged s t

/-- R124: UNPACK.S completes from every state; LINE (F[0x04..0x53]) is never written. -/
def Obligations.UnpackSLoadsFiveBytesOrNothing : Prop :=
  ∀ s : State, ∃ t, exec .unpackS s = .next t ∧
    (s.flen = 5 → (∀ i : Fin 85, i.val < 4 → t.f[i] = s.fbuf[i]) ∧ t.f[0x54] = s.fbuf[4] ∧
      t.result = .ok ∧ statusByte t = 0x0C) ∧
    (s.flen ≠ 5 → t.f = s.f ∧ t.result = .framingError ∧ statusByte t = 0x0D) ∧
    (∀ i : Fin 85, 4 ≤ i.val → i.val ≤ 0x53 → t.f[i] = s.f[i]) ∧
    t.shape = .S ∧ t.done = true ∧ t.cmdlast = 0x0B ∧
    t.fbuf = s.fbuf ∧ t.flen = s.flen ∧ t.calcReg = s.calcReg ∧ PortUnchanged s t

/-- R91, R92, R120: the named field behind every byte of a packed frame, and the frame's length. -/
def Obligations.PackedFrameLayout : Prop :=
  ∀ s : State,
    (∃ t, exec .packM s = .next t ∧ (frameBytes .M t).length = 85 ∧ frameBytes .M t = frameImage .M s ∧
      t.fbuf[0] = toReg s ∧ t.fbuf[1] = fromReg s ∧ t.fbuf[2] = inputsReg s ∧
      t.fbuf[3] = outputsReg s ∧
      (∀ (k : Fin 4) (j : Fin 20), (frameBytes .M t)[4 + 20 * k.val + j.val]? = some (lineReg k j s)) ∧
      t.fbuf[84] = chkReg s) ∧
    (∃ t, exec .packS s = .next t ∧
      frameBytes .S t = [toReg s, fromReg s, inputsReg s, outputsReg s, chkReg s] ∧
      frameBytes .S t = frameImage .S s)

/-- R125: UNPACK after PACK gives every field register back, whatever the registers hold. -/
def Obligations.UnpackAfterPackRestoresFields : Prop :=
  ∀ (sh : Shape) (s : State), ∃ t u, exec (.pack sh) s = .next t ∧ exec (.unpack sh) t = .next u ∧
    u.f = s.f ∧ u.result = .ok

/-- R126: PACK after a successful UNPACK gives the frame back; and PACK is a bijection between the
contents of the shape's registers and the frames of the shape's length. -/
def Obligations.PackAfterUnpackRestoresFrame : Prop :=
  ∀ sh : Shape,
    (∀ s t : State, exec (.unpack sh) s = .next t → t.result = .ok →
      ∃ u, exec (.pack sh) t = .next u ∧ frameBytes sh u = frameBytes sh s ∧ u.flen = s.flen) ∧
    (∀ s s' t t' : State, exec (.pack sh) s = .next t → exec (.pack sh) s' = .next t' →
      frameBytes sh t = frameBytes sh t' → SameFields sh s s') ∧
    (∀ bs : List Byte, bs.length = frameSize sh →
      ∃ s t : State, exec (.pack sh) s = .next t ∧ frameBytes sh t = bs)

/-- R127: PACK never fails and sets FLEN; UNPACK writes all of its shape's registers or none. -/
def Obligations.PackIsTotalUnpackAllOrNothing : Prop :=
  ∀ (sh : Shape) (s : State),
    (∃ t, exec (.pack sh) s = .next t ∧ t.result = .ok ∧ t.flen.toNat = frameSize sh) ∧
    (∃ t, exec (.unpack sh) s = .next t ∧
      (((∀ i : Fin 85, i.val < frameFields sh → t.f[i] = s.fbuf[i]) ∧ t.f[0x54] = rxCheck sh s) ∨
        t.f = s.f))

/-! ## Integrity Guard -/

/-- R144: SEAL.M completes from every state. -/
def Obligations.SealMAttachesTheChecksum : Prop :=
  ∀ s : State, ∃ t, exec .sealM s = .next t ∧
    t.f[0x54] = csum s.cfg.csumAlg (s.f.toList.take 84) ∧
    t.calcReg = csum s.cfg.csumAlg (s.f.toList.take 84) ∧
    (∀ i : Fin 85, i.val < 0x54 → t.f[i] = s.f[i]) ∧
    t.result = .ok ∧ t.shape = .M ∧ t.done = true ∧ statusByte t = 0x08 ∧ t.cmdlast = 0x02 ∧
    t.fbuf = s.fbuf ∧ t.flen = s.flen ∧ PortUnchanged s t

/-- R145: SEAL.S completes from every state; its checksum covers TO, FROM, INPUTS and OUTPUTS. -/
def Obligations.SealSAttachesTheChecksum : Prop :=
  ∀ s : State, ∃ t, exec .sealS s = .next t ∧
    t.f[0x54] = csum s.cfg.csumAlg [toReg s, fromReg s, inputsReg s, outputsReg s] ∧
    t.calcReg = csum s.cfg.csumAlg [toReg s, fromReg s, inputsReg s, outputsReg s] ∧
    (∀ i : Fin 85, i.val < 0x54 → t.f[i] = s.f[i]) ∧
    t.result = .ok ∧ t.shape = .S ∧ t.done = true ∧ statusByte t = 0x0C ∧ t.cmdlast = 0x0A ∧
    t.fbuf = s.fbuf ∧ t.flen = s.flen ∧ PortUnchanged s t

/-- R146: VERIFY.M completes from every state, valid, FramingError or CorruptFrame. -/
def Obligations.VerifyMChecksLengthThenChecksum : Prop :=
  ∀ s : State, ∃ t, exec .verifyM s = .next t ∧
    (s.flen ≠ 85 → t.calcReg = s.calcReg ∧ t.result = .framingError ∧ statusByte t = 0x09) ∧
    (s.flen = 85 → t.calcReg = csum s.cfg.csumAlg (s.fbuf.toList.take 84)) ∧
    (s.flen = 85 → csum s.cfg.csumAlg (s.fbuf.toList.take 84) = s.fbuf[84] →
      t.result = .ok ∧ statusByte t = 0x08) ∧
    (s.flen = 85 → csum s.cfg.csumAlg (s.fbuf.toList.take 84) ≠ s.fbuf[84] →
      t.result = .corruptFrame ∧ statusByte t = 0x0A) ∧
    t.shape = .M ∧ t.done = true ∧ t.cmdlast = 0x04 ∧
    t.f = s.f ∧ t.fbuf = s.fbuf ∧ t.flen = s.flen ∧ PortUnchanged s t

/-- R147: VERIFY.S completes from every state; FBUF[5..84] are not read. -/
def Obligations.VerifySChecksLengthThenChecksum : Prop :=
  ∀ s : State, ∃ t, exec .verifyS s = .next t ∧
    (s.flen ≠ 5 → t.calcReg = s.calcReg ∧ t.result = .framingError ∧ statusByte t = 0x0D) ∧
    (s.flen = 5 →
      t.calcReg = csum s.cfg.csumAlg [s.fbuf[0], s.fbuf[1], s.fbuf[2], s.fbuf[3]]) ∧
    (s.flen = 5 → csum s.cfg.csumAlg [s.fbuf[0], s.fbuf[1], s.fbuf[2], s.fbuf[3]] = s.fbuf[4] →
      t.result = .ok ∧ statusByte t = 0x0C) ∧
    (s.flen = 5 → csum s.cfg.csumAlg [s.fbuf[0], s.fbuf[1], s.fbuf[2], s.fbuf[3]] ≠ s.fbuf[4] →
      t.result = .corruptFrame ∧ statusByte t = 0x0E) ∧
    t.shape = .S ∧ t.done = true ∧ t.cmdlast = 0x0C ∧
    t.f = s.f ∧ t.fbuf = s.fbuf ∧ t.flen = s.flen ∧ PortUnchanged s t

/-- R148: RECV.M completes from every state; the fields are written only from a valid frame. -/
def Obligations.RecvMLoadsOnlyValidFrames : Prop :=
  ∀ s : State, ∃ t, exec .recvM s = .next t ∧
    (s.flen ≠ 85 → t.f = s.f ∧ t.calcReg = s.calcReg ∧ t.result = .framingError ∧
      statusByte t = 0x09) ∧
    (s.flen = 85 → t.calcReg = csum s.cfg.csumAlg (s.fbuf.toList.take 84)) ∧
    (s.flen = 85 → csum s.cfg.csumAlg (s.fbuf.toList.take 84) = s.fbuf[84] →
      (∀ i : Fin 85, t.f[i] = s.fbuf[i]) ∧ t.f[0x54] = t.calcReg ∧ t.result = .ok ∧
        statusByte t = 0x08) ∧
    (s.flen = 85 → csum s.cfg.csumAlg (s.fbuf.toList.take 84) ≠ s.fbuf[84] →
      t.f = s.f ∧ t.result = .corruptFrame ∧ statusByte t = 0x0A) ∧
    t.shape = .M ∧ t.done = true ∧ t.cmdlast = 0x05 ∧
    t.fbuf = s.fbuf ∧ t.flen = s.flen ∧ PortUnchanged s t

/-- R149: RECV.S completes from every state; LINE (F[0x04..0x53]) is never written. -/
def Obligations.RecvSLoadsOnlyValidFrames : Prop :=
  ∀ s : State, ∃ t, exec .recvS s = .next t ∧
    (s.flen ≠ 5 → t.f = s.f ∧ t.calcReg = s.calcReg ∧ t.result = .framingError ∧
      statusByte t = 0x0D) ∧
    (s.flen = 5 →
      t.calcReg = csum s.cfg.csumAlg [s.fbuf[0], s.fbuf[1], s.fbuf[2], s.fbuf[3]]) ∧
    (s.flen = 5 → csum s.cfg.csumAlg [s.fbuf[0], s.fbuf[1], s.fbuf[2], s.fbuf[3]] = s.fbuf[4] →
      (∀ i : Fin 85, i.val < 4 → t.f[i] = s.fbuf[i]) ∧ t.f[0x54] = s.fbuf[4] ∧ t.result = .ok ∧
        statusByte t = 0x0C) ∧
    (s.flen = 5 → csum s.cfg.csumAlg [s.fbuf[0], s.fbuf[1], s.fbuf[2], s.fbuf[3]] ≠ s.fbuf[4] →
      t.f = s.f ∧ t.result = .corruptFrame ∧ statusByte t = 0x0E) ∧
    (∀ i : Fin 85, 4 ≤ i.val → i.val ≤ 0x53 → t.f[i] = s.f[i]) ∧
    t.shape = .S ∧ t.done = true ∧ t.cmdlast = 0x0D ∧
    t.fbuf = s.fbuf ∧ t.flen = s.flen ∧ PortUnchanged s t

/-- R150: SEAL, PACK, VERIFY ends valid, and SEAL, PACK, RECV ends valid with the fields that SEAL
left, whatever the checksum function. -/
def Obligations.SealedFramesAreAccepted : Prop :=
  ∀ (sh : Shape) (s : State), ∃ t u v w,
    exec (.seal sh) s = .next t ∧ exec (.pack sh) t = .next u ∧
    exec (.verify sh) u = .next v ∧ v.result = .ok ∧
    exec (.recv sh) u = .next w ∧ w.result = .ok ∧ w.f = t.f ∧
    ∀ i : Fin 85, i.val < 0x54 → w.f[i] = s.f[i]

/-- R151: after a valid VERIFY, one changed byte anywhere in the frame makes VERIFY and RECV report
CorruptFrame, for every checksum function with P2; and under SUM8 two changes that cancel pass. -/
def Obligations.SingleByteCorruptionIsCaught : Prop :=
  (∀ (sh : Shape) (s t : State) (p : Fin 85) (v : Byte),
    DetectsSingleByte (csum s.cfg.csumAlg) →
    exec (.verify sh) s = .next t → t.result = .ok → p.val < frameSize sh → v ≠ t.fbuf[p] →
    ∃ u w, exec (.verify sh) (t.setFbuf (t.fbuf.set p v)) = .next u ∧ u.result = .corruptFrame ∧
      exec (.recv sh) (t.setFbuf (t.fbuf.set p v)) = .next w ∧ w.result = .corruptFrame) ∧
  (∀ (sh : Shape) (s t : State) (p q : Fin 85) (v w : Byte), s.cfg.csumAlg = .sum8 →
    exec (.verify sh) s = .next t → t.result = .ok →
    p.val < frameFields sh → q.val < frameFields sh → p ≠ q →
    v + w = t.fbuf[p] + t.fbuf[q] →
    ∃ u, exec (.verify sh) (t.setFbuf ((t.fbuf.set p v).set q w)) = .next u ∧ u.result = .ok)

/-- R152: what VERIFY and RECV report and write depends on FLEN and the frame's bytes alone (for one
and the same CSUM_ALG). -/
def Obligations.VerdictDependsOnTheFrameAlone : Prop :=
  ∀ (sh : Shape) (s s' : State), s.cfg.csumAlg = s'.cfg.csumAlg → s.flen = s'.flen →
    frameBytes sh s = frameBytes sh s' →
    ∃ t t' u u', exec (.verify sh) s = .next t ∧ exec (.verify sh) s' = .next t' ∧
      exec (.recv sh) s = .next u ∧ exec (.recv sh) s' = .next u' ∧
      t.result = t'.result ∧ u.result = u'.result ∧ t.result = u.result ∧
      (t.result ≠ .framingError → t.calcReg = t'.calcReg ∧ u.calcReg = u'.calcReg) ∧
      (u.result = .ok → SameFields sh u u')

/-- R204: a frame packed after a field of its shape has changed since the SEAL is rejected, for every
checksum function with P2. -/
def Obligations.StaleChecksumIsRejected : Prop :=
  ∀ (sh : Shape) (s t : State) (p : Fin 85) (v : Byte),
    DetectsSingleByte (csum s.cfg.csumAlg) → exec (.seal sh) s = .next t →
    p.val < frameFields sh → v ≠ t.f[p] →
    ∃ u w, exec (.pack sh) (t.setF (t.f.set p v)) = .next u ∧
      exec (.recv sh) u = .next w ∧ w.result = .corruptFrame ∧ w.f = t.f.set p v

/-! ## Checksum functions -/

/-- R141: SUM8 is the sum modulo 256, has P2, and has the values of the rule's examples. -/
def Obligations.Sum8IsTheSumModulo256 : Prop :=
  (∀ s : List Byte, (sum8 s).toNat = (s.map BitVec.toNat).sum % 256) ∧ sum8 [] = 0x00 ∧
  DetectsSingleByte sum8 ∧ State.reset.cfg.csumAlg = .sum8 ∧
  sum8 ([0x02, 0x01, 0x00, 0x01] ++ List.replicate 80 0x20) = 0x04 ∧
  sum8 [0x01, 0x05, 0xA5, 0x3C] = 0xE7 ∧ sum8 (List.replicate 84 0xFF) = 0xAC ∧
  sum8 [0x80, 0x80, 0x80, 0x80] = 0x00

/-- R142: XOR8 and CRC8 have P2; XOR8's and CRC8's recurrences, and CRC8's check value. -/
def Obligations.Xor8AndCrc8DetectSingleBytes : Prop :=
  DetectsSingleByte xor8 ∧ DetectsSingleByte crc8 ∧
  xor8 [] = 0x00 ∧ (∀ s b, xor8 (s ++ [b]) = xor8 s ^^^ b) ∧
  crc8 [] = 0x00 ∧ (∀ s b, crc8 (s ++ [b]) = crcBit^[8] (crc8 s ^^^ b)) ∧
  (∀ c : Byte, (crcBit c).toNat =
    if c.getLsbD 7 then Nat.xor ((2 * c.toNat) % 256) 0x07 else (2 * c.toNat) % 256) ∧
  crc8 [0x31, 0x32, 0x33, 0x34, 0x35, 0x36, 0x37, 0x38, 0x39] = 0xF4

/-- R142's "CRC-8 with generator polynomial": a sequence followed by its own CRC has CRC 0, and the
CRC of the exclusive or of two sequences of one length is the exclusive or of their CRCs. -/
def Obligations.Crc8IsLinearAndSelfChecking : Prop :=
  (∀ s : List Byte, crc8 (s ++ [crc8 s]) = 0x00) ∧
  ∀ s t : List Byte, s.length = t.length → crc8 (List.zipWith (· ^^^ ·) s t) = crc8 s ^^^ crc8 t

/-! ## Control commands -/

/-- R160: NOP completes from every state and writes CMDLAST and DONE only. -/
def Obligations.NopRecordsItselfOnly : Prop :=
  ∀ s : State, ∃ t, exec .nop s = .next t ∧ t.cmdlast = 0x00 ∧ t.done = true ∧
    t.result = s.result ∧ t.shape = s.shape ∧
    t.f = s.f ∧ t.fbuf = s.fbuf ∧ t.flen = s.flen ∧ t.calcReg = s.calcReg ∧ PortUnchanged s t

/-- R161: RXCLR completes from every state and empties the length; the cells keep their values. -/
def Obligations.RxclrEmptiesTheLength : Prop :=
  ∀ s : State, ∃ t, exec .rxclr s = .next t ∧ t.flen = 0 ∧ t.cmdlast = 0x06 ∧
    t.result = .ok ∧ t.shape = .M ∧ t.done = true ∧ statusByte t = 0x08 ∧
    t.f = s.f ∧ t.fbuf = s.fbuf ∧ t.calcReg = s.calcReg ∧ PortUnchanged s t

/-! ## Host reads and writes -/

/-- R164: the read map, all 256 addresses, and STATUS as a number. -/
def Obligations.ReadMap : Prop :=
  ∀ s : State,
    (∀ i : Fin 85, memRead s (BitVec.ofNat 8 i) = s.f[i]) ∧
    memRead s 0x60 = s.cmdlast ∧ memRead s 0x61 = statusByte s ∧ memRead s 0x62 = s.calcReg ∧
    memRead s 0x63 = s.flen.extractLsb' 0 8 ∧ memRead s 0x64 = s.flen.extractLsb' 8 8 ∧
    memRead s 0x65 = 0x00 ∧
    (∀ i : Fin 85, memRead s (BitVec.ofNat 8 (0x80 + i)) = s.fbuf[i]) ∧
    (∀ a, Reserved a → memRead s a = 0x00) ∧
    (statusByte s).toNat = 8 * s.done.toNat + 4 * s.shape.bit.toNat + (resultCode s.result).toNat

/-- R165: the write map, all 256 addresses. -/
def Obligations.WriteMap : Prop :=
  ∀ (s : State) (v : Byte),
    (∀ i : Fin 85, memWrite (BitVec.ofNat 8 i) v s = .next (s.setF (s.f.set i v))) ∧
    memWrite 0x60 v s = cmdWrite v s ∧ memWrite 0x61 v s = .next s ∧ memWrite 0x62 v s = .next s ∧
    memWrite 0x63 v s = .next (s.setFlen (s.flen.extractLsb' 8 8 ++ v)) ∧
    memWrite 0x64 v s = .next (s.setFlen (v ++ s.flen.extractLsb' 0 8)) ∧
    memWrite 0x65 v s = .next (rxPush v s) ∧
    (∀ i : Fin 85, memWrite (BitVec.ofNat 8 (0x80 + i)) v s = .next (s.setFbuf (s.fbuf.set i v))) ∧
    (∀ a, Reserved a → memWrite a v s = .next s)

/-- R31, R33, R66, R70: what the host writes to a read-write address it reads back there, and every
other address reads as before. -/
def Obligations.WritesReadBackAndTouchNothingElse : Prop :=
  ∀ (s : State) (a v : Byte), ReadWrite a →
    ∃ t, memWrite a v s = .next t ∧ memRead t a = v ∧ (∀ b, b ≠ a → memRead t b = memRead s b) ∧
      PortUnchanged s t

/-- R66: FLEN is little-endian: each byte write replaces its half, and two writes set the whole. -/
def Obligations.FlenIsLittleEndian : Prop :=
  ∀ (s : State) (v : Byte),
    s.flen.toNat = 256 * (memRead s 0x64).toNat + (memRead s 0x63).toNat ∧
    (∃ t, memWrite 0x63 v s = .next t ∧
      t.flen.toNat = 256 * (memRead s 0x64).toNat + v.toNat) ∧
    (∃ t, memWrite 0x64 v s = .next t ∧
      t.flen.toNat = 256 * v.toNat + (memRead s 0x63).toNat)

/-- R166: RXPUSH stores at FLEN while a cell is left, always counts, never wraps, and reports nothing;
a byte pushed beyond the last cell makes every later length check fail. -/
def Obligations.RxpushAppendsOrCounts : Prop :=
  ∀ (s : State) (v : Byte), ∃ t, memWrite 0x65 v s = .next t ∧
    t.flen.toNat = min (s.flen.toNat + 1) 0xFFFF ∧
    (∀ i : Fin 85, t.fbuf[i] = if i.val = s.flen.toNat then v else s.fbuf[i]) ∧
    (85 ≤ s.flen.toNat → t.fbuf = s.fbuf ∧
      ∀ (sh : Shape) (i : Instr), ChecksLength sh i →
        ∃ u, exec i t = .next u ∧ u.result = .framingError) ∧
    StatusUnchanged s t ∧ t.f = s.f ∧ t.calcReg = s.calcReg ∧ t.cmdlast = s.cmdlast ∧
    PortUnchanged s t

/-! ## Frames: what each command leaves as it was, through the host's reads -/

/-- R42: PACK changes the cells of its frame, FLEN, STATUS and CMDLAST, and every other address reads
as before. -/
def Obligations.FrameOfPack : Prop :=
  ∀ (sh : Shape) (s t : State), exec (.pack sh) s = .next t →
    PortUnchanged s t ∧
    ∀ a : Byte, ¬ (0x80 ≤ a.toNat ∧ a.toNat < 0x80 + frameSize sh) →
      a ∉ [0x60, 0x61, 0x63, 0x64] → memRead t a = memRead s a

/-- R42: UNPACK and RECV change the field registers of their shape, STATUS and CMDLAST, RECV also
CALC; SEAL changes CHK, CALC, STATUS and CMDLAST; every other address reads as before, all of FBUF
and FLEN among them. -/
def Obligations.FrameOfFieldWriters : Prop :=
  ∀ (sh : Shape) (s : State),
    (∀ t, exec (.unpack sh) s = .next t → PortUnchanged s t ∧ t.calcReg = s.calcReg ∧
      ∀ a : Byte, frameFields sh ≤ a.toNat → a ∉ [0x54, 0x60, 0x61] → memRead t a = memRead s a) ∧
    (∀ t, exec (.recv sh) s = .next t → PortUnchanged s t ∧
      ∀ a : Byte, frameFields sh ≤ a.toNat → a ∉ [0x54, 0x60, 0x61, 0x62] →
        memRead t a = memRead s a) ∧
    (∀ t, exec (.seal sh) s = .next t → PortUnchanged s t ∧
      ∀ a : Byte, a ∉ [0x54, 0x60, 0x61, 0x62] → memRead t a = memRead s a)

/-- R42: VERIFY changes CALC, RXCLR changes FLEN, NOP neither, each STATUS and CMDLAST; every other
address reads as before, all of F and FBUF among them; NOP leaves RESULT and SHAPE as well. -/
def Obligations.FrameOfCheckersAndControl : Prop :=
  ∀ s : State,
    (∀ sh t, exec (.verify sh) s = .next t → PortUnchanged s t ∧
      ∀ a : Byte, a ∉ [0x60, 0x61, 0x62] → memRead t a = memRead s a) ∧
    (∀ t, exec .rxclr s = .next t → PortUnchanged s t ∧
      ∀ a : Byte, a ∉ [0x60, 0x61, 0x63, 0x64] → memRead t a = memRead s a) ∧
    (∀ t, exec .nop s = .next t → PortUnchanged s t ∧ t.result = s.result ∧ t.shape = s.shape ∧
      ∀ a : Byte, a ∉ [0x60, 0x61] → memRead t a = memRead s a)

/-! ## Errors -/

/-- R182: FRAMING_ERROR exactly where UNPACK, VERIFY or RECV finds a wrong length; nothing but STATUS
and CMDLAST is then changed; no other command raises it. -/
def Obligations.FramingErrorExactlyOnWrongLength : Prop :=
  ∀ (c : Byte) (s t : State), cmdWrite c s = .next t → c ≠ 0x00 →
    (t.result = .framingError ↔
      ∃ sh i, decode c = .legal i ∧ ChecksLength sh i ∧ s.flen.toNat ≠ frameSize sh) ∧
    (t.result = .framingError →
      t.f = s.f ∧ t.fbuf = s.fbuf ∧ t.flen = s.flen ∧ t.calcReg = s.calcReg) ∧
    ∀ u, cmdWrite 0x00 s = .next u → u.result = s.result

/-- R183: CORRUPT_FRAME exactly where VERIFY or RECV finds the right length and a wrong checksum; CALC
then holds the recomputed one and no field register changes. -/
def Obligations.CorruptFrameExactlyOnWrongChecksum : Prop :=
  ∀ (c : Byte) (s t : State), cmdWrite c s = .next t → c ≠ 0x00 →
    (t.result = .corruptFrame ↔
      ∃ sh i, decode c = .legal i ∧ ChecksCsum sh i ∧ s.flen.toNat = frameSize sh ∧
        csum s.cfg.csumAlg (rxBytes sh s) ≠ rxCheck sh s) ∧
    (∀ sh, t.result = .corruptFrame → decode c = .legal (.verify sh) ∨ decode c = .legal (.recv sh) →
      t.calcReg = csum s.cfg.csumAlg (rxBytes sh s) ∧ rxCheck sh t = rxCheck sh s ∧ t.f = s.f)

/-- R186: the first failing check, in the order legality, length, checksum, decides the result; a wrong
length leaves the checksum uncomputed. -/
def Obligations.FirstFailingCheckDecides : Prop :=
  ∀ (c : Byte) (s : State), c ≠ 0x00 → ∃ t, cmdWrite c s = .next t ∧
    (illegalByte c = true → t.result = .illegalCmd) ∧
    (∀ sh i, decode c = .legal i → ChecksLength sh i → s.flen.toNat ≠ frameSize sh →
      t.result = .framingError ∧ t.calcReg = s.calcReg) ∧
    (∀ sh i, decode c = .legal i → ChecksCsum sh i → s.flen.toNat = frameSize sh →
      rxCsum sh s ≠ rxCheck sh s → t.result = .corruptFrame) ∧
    (∀ i, decode c = .legal i → (∀ sh, ChecksLength sh i → s.flen.toNat = frameSize sh) →
      (∀ sh, ChecksCsum sh i → rxCsum sh s = rxCheck sh s) → t.result = .ok)

/-- R185: no value is an error: PACK, SEAL and RXCLR always complete; UNPACK's result depends on FLEN
alone; a push reports nothing, and one beyond 85 bytes is a FRAMING_ERROR at the next length check. -/
def Obligations.ValuesAreNeverErrors : Prop :=
  (∀ (sh : Shape) (s : State), ∃ t u v, exec (.pack sh) s = .next t ∧ t.result = .ok ∧
    exec (.seal sh) s = .next u ∧ u.result = .ok ∧ exec .rxclr s = .next v ∧ v.result = .ok) ∧
  (∀ (sh : Shape) (s s' : State), s.flen = s'.flen → ∃ t t',
    exec (.unpack sh) s = .next t ∧ exec (.unpack sh) s' = .next t' ∧ t.result = t'.result) ∧
  (∀ (sh : Shape) (s s' : State), s.flen = s'.flen → frameBytes sh s = frameBytes sh s' →
    s.cfg.csumAlg = s'.cfg.csumAlg → ∃ t t' u u',
      exec (.verify sh) s = .next t ∧ exec (.verify sh) s' = .next t' ∧ t.result = t'.result ∧
      exec (.recv sh) s = .next u ∧ exec (.recv sh) s' = .next u' ∧ u.result = u'.result) ∧
  (∀ (s : State) (v : Byte), ∃ t, memWrite 0x65 v s = .next t ∧ StatusUnchanged s t ∧
    (85 ≤ s.flen.toNat → ∀ (sh : Shape) (i : Instr), ChecksLength sh i →
      ∃ u, exec i t = .next u ∧ u.result = .framingError))

/-- R168: STATUS steers nothing: two states that differ only in STATUS and CMDLAST are left alike in
everything else by every CMD write, and in STATUS too unless the command is NOP. -/
def Obligations.StatusSteersNothing : Prop :=
  ∀ (c : Byte) (s t : State) (b : Byte) (r : Result) (sh : Shape) (d : Bool),
    cmdWrite c s = .next t →
    ∃ t', cmdWrite c { s with cmdlast := b, result := r, shape := sh, done := d } = .next t' ∧
      t'.f = t.f ∧ t'.fbuf = t.fbuf ∧ t'.flen = t.flen ∧ t'.calcReg = t.calcReg ∧
      t'.cmdlast = t.cmdlast ∧ t'.done = t.done ∧ PortUnchanged t t' ∧
      (c ≠ 0x00 → t'.result = t.result ∧ t'.shape = t.shape)

/-- R32: a shape-S command neither reads nor writes LINE (F[0x04..0x53]): with other line bytes it does
the same to all else, and each state keeps its own. -/
def Obligations.ShapeSNeverTouchesLine : Prop :=
  ∀ (i : Instr) (s s' t : State),
    i ∈ [Instr.packS, Instr.sealS, Instr.unpackS, Instr.verifyS, Instr.recvS] →
    SameFields .S s s' → s'.setF s.f = s → exec i s = .next t →
    (∀ j : Fin 85, 4 ≤ j.val → j.val ≤ 0x53 → t.f[j] = s.f[j]) ∧
    ∃ t', exec i s' = .next t' ∧ SameFields .S t t' ∧ t'.setF t.f = t ∧
      ∀ j : Fin 85, 4 ≤ j.val → j.val ≤ 0x53 → t'.f[j] = s'.f[j]

/-! ## Whole-machine rules -/

/-- R37: SEAL writes into CALC the value it attached, VERIFY and RECV the value they recomputed when the
length check passed; it changes in no other step but a reset; the host reads it and cannot write it. -/
def Obligations.CalcHoldsTheLastComputedChecksum : Prop :=
  (∀ (sh : Shape) (s t : State), exec (.seal sh) s = .next t →
    t.calcReg = fieldCsum sh s ∧ t.f[0x54] = t.calcReg) ∧
  (∀ (sh : Shape) (i : Instr) (s t : State), ChecksCsum sh i → exec i s = .next t →
    t.calcReg = if s.flen.toNat = frameSize sh then rxCsum sh s else s.calcReg) ∧
  (∀ (s : State) (v : Byte), memRead s 0x62 = s.calcReg ∧ memWrite 0x62 v s = .next s) ∧
  ∀ s t : State, step s = .next t → t.calcReg ≠ s.calcReg →
    (∃ rest, s.pending = .rst true :: rest) ∨
    ∃ c rest sh i, s.pending = .host (.write 0x60 c) :: rest ∧ s.rst = false ∧ decode c = .legal i ∧
      (i = .seal sh ∨ (ChecksCsum sh i ∧ s.flen.toNat = frameSize sh))

/-- R36: STATUS changes only in a CMD write or at reset. -/
def Obligations.StatusWrittenOnlyByCommands : Prop :=
  ∀ s t : State, step s = .next t → ¬ StatusUnchanged s t →
    (∃ rest, s.pending = .rst true :: rest) ∨
    ∃ c rest, s.pending = .host (.write 0x60 c) :: rest ∧ s.rst = false ∧ t.done = true

/-- R35: CMDLAST is the byte last written to CMD: a CMD write sets it and the host reads it back; no
other step changes it but reset. -/
def Obligations.CmdlastHoldsTheLastCommandByte : Prop :=
  (∀ (s : State) (c : Byte), ∃ t, memWrite 0x60 c s = .next t ∧ memRead t 0x60 = c) ∧
  ∀ s t : State, step s = .next t → t.cmdlast ≠ s.cmdlast →
    (∃ rest, s.pending = .rst true :: rest) ∨
    ∃ rest, s.pending = .host (.write 0x60 t.cmdlast) :: rest ∧ s.rst = false

/-- Log 1, log 2: no step changes the machine's parameters. -/
def Obligations.ParametersNeverChange : Prop :=
  ∀ s t : State, step s = .next t → t.cfg = s.cfg

/-- The invariant holds at reset. -/
def Obligations.ResetIsConsistent : Prop := consistent State.reset = true

/-- R36, R41, R163, R181, R201: STATUS and CMDLAST tell the last command's outcome, DONE clear means no
command since reset, and RST asserted means a quiet block; from every such state every step leads to
such a state. -/
def Obligations.StepKeepsConsistency : Prop :=
  ∀ s t : State, consistent s = true → step s = .next t → consistent t = true

/-! ## Host programs of pushes: every received sequence -/

/-- R103: the accesses WR, RD and the mnemonics stand for. R104: those of the pseudo-statements. Two
clauses are the model's choice (log 12): FILL is stated inside the register space only, and LDFRAME of
more than 85 bytes, to which R104 gives no expansion, pushes every byte. -/
def Obligations.StatementExpansions : Prop :=
  (∀ a v, expand (.wr a v) = [.write a v]) ∧ (∀ a, expand (.rd a) = [.read a]) ∧
  (∀ i, expand (.command i) = [.write 0x60 (encode i)]) ∧
  (∀ c, expand (.cmd c) = [.write 0x60 c]) ∧ (∀ v, expand (.push v) = [.write 0x65 v]) ∧
  (∀ n v, expand (.pushN n v) = List.replicate n (.write 0x65 v)) ∧
  (∀ a n v, (Stmt.fill a n v).wellFormed = true →
    (expand (.fill a n v)).length = n ∧
    ∀ i, i < n → ∃ b : Byte, b.toNat = a.toNat + i ∧ (expand (.fill a n v))[i]? = some (.write b v)) ∧
  (∀ n : Half, expand (.setLen n) =
    [.write 0x63 (n.extractLsb' 0 8), .write 0x64 (n.extractLsb' 8 8)]) ∧
  (∀ s, expand (.ldFrame s) = .write 0x60 0x06 :: s.map fun v => .write 0x65 v) ∧
  expand .status = [.read 0x61]

/-- R34, R166: pushing any byte sequence from any FLEN: what the cells and the counter hold after it. -/
def Obligations.PushedSequenceLandsAtFlen : Prop :=
  ∀ (bs : List Byte) (s : State) (rest : List Event), s.rst = false →
    s.pending = bs.map (fun v => .host (.write 0x65 v)) ++ rest →
    ∃ t : State, Host.Core.run Sys2Proof.core bs.length s = .next t ∧ t.pending = rest ∧
      t.flen.toNat = min (s.flen.toNat + bs.length) 0xFFFF ∧
      (∀ i : Fin 85, t.fbuf[i] =
        if s.flen.toNat ≤ i.val then bs.getD (i.val - s.flen.toNat) s.fbuf[i] else s.fbuf[i]) ∧
      t.f = s.f ∧ t.calcReg = s.calcReg ∧ t.cmdlast = s.cmdlast ∧ StatusUnchanged s t

/-- R202, R161, R166, R148, R149, R182, R183: RXCLR, any number of pushes, then RECV: the fields are
loaded exactly from the sequences of the shape's length whose last byte is the checksum of the others; a
wrong length, however long the sequence, is FRAMING_ERROR, a wrong checksum CORRUPT_FRAME, and neither
touches a field. The sequence comes as LDFRAME, which R104 bounds to 85 bytes; that a longer one is
pushed whole is the model's choice (log 12). -/
def Obligations.ReceiveAcceptsExactlyTheValidFrames : Prop :=
  ∀ (sh : Shape) (bs : List Byte) (s : State), s.rst = false →
    s.pending = hostEvents [.ldFrame bs, .command (.recv sh)] →
    ∃ t : State, Host.Core.run Sys2Proof.core (bs.length + 2) s = .next t ∧
      (bs.length ≠ frameSize sh → t.result = .framingError ∧ t.f = s.f) ∧
      (bs.length = frameSize sh →
        bs[frameFields sh]? ≠ some (csum s.cfg.csumAlg (bs.take (frameFields sh))) →
        t.result = .corruptFrame ∧ t.f = s.f) ∧
      (bs.length = frameSize sh →
        bs[frameFields sh]? = some (csum s.cfg.csumAlg (bs.take (frameFields sh))) →
        t.result = .ok ∧ frameImage sh t = bs)

/-- R150, R202, R161, R166, R148, R149: a message sealed and packed on one machine and pushed into another with the same
checksum function arrives: RECV reports OK and the fields are the sender's. -/
def Obligations.TransferDeliversTheFields : Prop :=
  ∀ (sh : Shape) (s t u r : State), exec (.seal sh) s = .next t → exec (.pack sh) t = .next u →
    r.rst = false → r.cfg.csumAlg = s.cfg.csumAlg →
    r.pending = hostEvents [.ldFrame (frameBytes sh u), .command (.recv sh)] →
    ∃ w : State, Host.Core.run Sys2Proof.core (frameSize sh + 2) r = .next w ∧ w.result = .ok ∧
      (∀ i : Fin 85, i.val < frameFields sh → w.f[i] = s.f[i]) ∧
      w.f[0x54] = csum s.cfg.csumAlg (fieldBytes sh s)

/-! ## The checksum parameter -/

/-- R140: every checksum function a machine can have is P2's: one byte changed in 4 or 84 changes the
checksum. P1 holds by the type; P3 is a cost, which no rule reads. -/
def Obligations.EveryChecksumDetectsSingleBytes : Prop :=
  ∀ a : CsumAlg, DetectsSingleByte (csum a)
end

