-- ==== Sys2Proof/Laws/State.lean ====
section
/-! SUPPORT. One lemma for each field under each update of the state. -/

namespace Sys2Proof.Machine

variable (s : State)

section setF
variable (v : Vector Byte 85)
@[simp] theorem State.setF_f : (s.setF v).f = v := rfl
@[simp] theorem State.setF_fbuf : (s.setF v).fbuf = s.fbuf := rfl
@[simp] theorem State.setF_flen : (s.setF v).flen = s.flen := rfl
@[simp] theorem State.setF_cmdlast : (s.setF v).cmdlast = s.cmdlast := rfl
@[simp] theorem State.setF_result : (s.setF v).result = s.result := rfl
@[simp] theorem State.setF_shape : (s.setF v).shape = s.shape := rfl
@[simp] theorem State.setF_done : (s.setF v).done = s.done := rfl
@[simp] theorem State.setF_calcReg : (s.setF v).calcReg = s.calcReg := rfl
@[simp] theorem State.setF_rst : (s.setF v).rst = s.rst := rfl
@[simp] theorem State.setF_cfg : (s.setF v).cfg = s.cfg := rfl
@[simp] theorem State.setF_pending : (s.setF v).pending = s.pending := rfl
@[simp] theorem State.setF_readLog : (s.setF v).readLog = s.readLog := rfl
@[simp] theorem State.setF_draws : (s.setF v).draws = s.draws := rfl
end setF

section setFbuf
variable (v : Vector Byte 85)
@[simp] theorem State.setFbuf_f : (s.setFbuf v).f = s.f := rfl
@[simp] theorem State.setFbuf_fbuf : (s.setFbuf v).fbuf = v := rfl
@[simp] theorem State.setFbuf_flen : (s.setFbuf v).flen = s.flen := rfl
@[simp] theorem State.setFbuf_cmdlast : (s.setFbuf v).cmdlast = s.cmdlast := rfl
@[simp] theorem State.setFbuf_result : (s.setFbuf v).result = s.result := rfl
@[simp] theorem State.setFbuf_shape : (s.setFbuf v).shape = s.shape := rfl
@[simp] theorem State.setFbuf_done : (s.setFbuf v).done = s.done := rfl
@[simp] theorem State.setFbuf_calcReg : (s.setFbuf v).calcReg = s.calcReg := rfl
@[simp] theorem State.setFbuf_rst : (s.setFbuf v).rst = s.rst := rfl
@[simp] theorem State.setFbuf_cfg : (s.setFbuf v).cfg = s.cfg := rfl
@[simp] theorem State.setFbuf_pending : (s.setFbuf v).pending = s.pending := rfl
@[simp] theorem State.setFbuf_readLog : (s.setFbuf v).readLog = s.readLog := rfl
@[simp] theorem State.setFbuf_draws : (s.setFbuf v).draws = s.draws := rfl
end setFbuf

section setFlen
variable (v : Half)
@[simp] theorem State.setFlen_f : (s.setFlen v).f = s.f := rfl
@[simp] theorem State.setFlen_fbuf : (s.setFlen v).fbuf = s.fbuf := rfl
@[simp] theorem State.setFlen_flen : (s.setFlen v).flen = v := rfl
@[simp] theorem State.setFlen_cmdlast : (s.setFlen v).cmdlast = s.cmdlast := rfl
@[simp] theorem State.setFlen_result : (s.setFlen v).result = s.result := rfl
@[simp] theorem State.setFlen_shape : (s.setFlen v).shape = s.shape := rfl
@[simp] theorem State.setFlen_done : (s.setFlen v).done = s.done := rfl
@[simp] theorem State.setFlen_calcReg : (s.setFlen v).calcReg = s.calcReg := rfl
@[simp] theorem State.setFlen_rst : (s.setFlen v).rst = s.rst := rfl
@[simp] theorem State.setFlen_cfg : (s.setFlen v).cfg = s.cfg := rfl
@[simp] theorem State.setFlen_pending : (s.setFlen v).pending = s.pending := rfl
@[simp] theorem State.setFlen_readLog : (s.setFlen v).readLog = s.readLog := rfl
@[simp] theorem State.setFlen_draws : (s.setFlen v).draws = s.draws := rfl
end setFlen

section setCmdlast
variable (v : Byte)
@[simp] theorem State.setCmdlast_f : (s.setCmdlast v).f = s.f := rfl
@[simp] theorem State.setCmdlast_fbuf : (s.setCmdlast v).fbuf = s.fbuf := rfl
@[simp] theorem State.setCmdlast_flen : (s.setCmdlast v).flen = s.flen := rfl
@[simp] theorem State.setCmdlast_cmdlast : (s.setCmdlast v).cmdlast = v := rfl
@[simp] theorem State.setCmdlast_result : (s.setCmdlast v).result = s.result := rfl
@[simp] theorem State.setCmdlast_shape : (s.setCmdlast v).shape = s.shape := rfl
@[simp] theorem State.setCmdlast_done : (s.setCmdlast v).done = s.done := rfl
@[simp] theorem State.setCmdlast_calcReg : (s.setCmdlast v).calcReg = s.calcReg := rfl
@[simp] theorem State.setCmdlast_rst : (s.setCmdlast v).rst = s.rst := rfl
@[simp] theorem State.setCmdlast_cfg : (s.setCmdlast v).cfg = s.cfg := rfl
@[simp] theorem State.setCmdlast_pending : (s.setCmdlast v).pending = s.pending := rfl
@[simp] theorem State.setCmdlast_readLog : (s.setCmdlast v).readLog = s.readLog := rfl
@[simp] theorem State.setCmdlast_draws : (s.setCmdlast v).draws = s.draws := rfl
end setCmdlast

section setResult
variable (v : Result)
@[simp] theorem State.setResult_f : (s.setResult v).f = s.f := rfl
@[simp] theorem State.setResult_fbuf : (s.setResult v).fbuf = s.fbuf := rfl
@[simp] theorem State.setResult_flen : (s.setResult v).flen = s.flen := rfl
@[simp] theorem State.setResult_cmdlast : (s.setResult v).cmdlast = s.cmdlast := rfl
@[simp] theorem State.setResult_result : (s.setResult v).result = v := rfl
@[simp] theorem State.setResult_shape : (s.setResult v).shape = s.shape := rfl
@[simp] theorem State.setResult_done : (s.setResult v).done = s.done := rfl
@[simp] theorem State.setResult_calcReg : (s.setResult v).calcReg = s.calcReg := rfl
@[simp] theorem State.setResult_rst : (s.setResult v).rst = s.rst := rfl
@[simp] theorem State.setResult_cfg : (s.setResult v).cfg = s.cfg := rfl
@[simp] theorem State.setResult_pending : (s.setResult v).pending = s.pending := rfl
@[simp] theorem State.setResult_readLog : (s.setResult v).readLog = s.readLog := rfl
@[simp] theorem State.setResult_draws : (s.setResult v).draws = s.draws := rfl
end setResult

section setShape
variable (v : Shape)
@[simp] theorem State.setShape_f : (s.setShape v).f = s.f := rfl
@[simp] theorem State.setShape_fbuf : (s.setShape v).fbuf = s.fbuf := rfl
@[simp] theorem State.setShape_flen : (s.setShape v).flen = s.flen := rfl
@[simp] theorem State.setShape_cmdlast : (s.setShape v).cmdlast = s.cmdlast := rfl
@[simp] theorem State.setShape_result : (s.setShape v).result = s.result := rfl
@[simp] theorem State.setShape_shape : (s.setShape v).shape = v := rfl
@[simp] theorem State.setShape_done : (s.setShape v).done = s.done := rfl
@[simp] theorem State.setShape_calcReg : (s.setShape v).calcReg = s.calcReg := rfl
@[simp] theorem State.setShape_rst : (s.setShape v).rst = s.rst := rfl
@[simp] theorem State.setShape_cfg : (s.setShape v).cfg = s.cfg := rfl
@[simp] theorem State.setShape_pending : (s.setShape v).pending = s.pending := rfl
@[simp] theorem State.setShape_readLog : (s.setShape v).readLog = s.readLog := rfl
@[simp] theorem State.setShape_draws : (s.setShape v).draws = s.draws := rfl
end setShape

section setDone
variable (v : Bool)
@[simp] theorem State.setDone_f : (s.setDone v).f = s.f := rfl
@[simp] theorem State.setDone_fbuf : (s.setDone v).fbuf = s.fbuf := rfl
@[simp] theorem State.setDone_flen : (s.setDone v).flen = s.flen := rfl
@[simp] theorem State.setDone_cmdlast : (s.setDone v).cmdlast = s.cmdlast := rfl
@[simp] theorem State.setDone_result : (s.setDone v).result = s.result := rfl
@[simp] theorem State.setDone_shape : (s.setDone v).shape = s.shape := rfl
@[simp] theorem State.setDone_done : (s.setDone v).done = v := rfl
@[simp] theorem State.setDone_calcReg : (s.setDone v).calcReg = s.calcReg := rfl
@[simp] theorem State.setDone_rst : (s.setDone v).rst = s.rst := rfl
@[simp] theorem State.setDone_cfg : (s.setDone v).cfg = s.cfg := rfl
@[simp] theorem State.setDone_pending : (s.setDone v).pending = s.pending := rfl
@[simp] theorem State.setDone_readLog : (s.setDone v).readLog = s.readLog := rfl
@[simp] theorem State.setDone_draws : (s.setDone v).draws = s.draws := rfl
end setDone

section setCalc
variable (v : Byte)
@[simp] theorem State.setCalc_f : (s.setCalc v).f = s.f := rfl
@[simp] theorem State.setCalc_fbuf : (s.setCalc v).fbuf = s.fbuf := rfl
@[simp] theorem State.setCalc_flen : (s.setCalc v).flen = s.flen := rfl
@[simp] theorem State.setCalc_cmdlast : (s.setCalc v).cmdlast = s.cmdlast := rfl
@[simp] theorem State.setCalc_result : (s.setCalc v).result = s.result := rfl
@[simp] theorem State.setCalc_shape : (s.setCalc v).shape = s.shape := rfl
@[simp] theorem State.setCalc_done : (s.setCalc v).done = s.done := rfl
@[simp] theorem State.setCalc_calcReg : (s.setCalc v).calcReg = v := rfl
@[simp] theorem State.setCalc_rst : (s.setCalc v).rst = s.rst := rfl
@[simp] theorem State.setCalc_cfg : (s.setCalc v).cfg = s.cfg := rfl
@[simp] theorem State.setCalc_pending : (s.setCalc v).pending = s.pending := rfl
@[simp] theorem State.setCalc_readLog : (s.setCalc v).readLog = s.readLog := rfl
@[simp] theorem State.setCalc_draws : (s.setCalc v).draws = s.draws := rfl
end setCalc

section setRst
variable (v : Bool)
@[simp] theorem State.setRst_f : (s.setRst v).f = s.f := rfl
@[simp] theorem State.setRst_fbuf : (s.setRst v).fbuf = s.fbuf := rfl
@[simp] theorem State.setRst_flen : (s.setRst v).flen = s.flen := rfl
@[simp] theorem State.setRst_cmdlast : (s.setRst v).cmdlast = s.cmdlast := rfl
@[simp] theorem State.setRst_result : (s.setRst v).result = s.result := rfl
@[simp] theorem State.setRst_shape : (s.setRst v).shape = s.shape := rfl
@[simp] theorem State.setRst_done : (s.setRst v).done = s.done := rfl
@[simp] theorem State.setRst_calcReg : (s.setRst v).calcReg = s.calcReg := rfl
@[simp] theorem State.setRst_rst : (s.setRst v).rst = v := rfl
@[simp] theorem State.setRst_cfg : (s.setRst v).cfg = s.cfg := rfl
@[simp] theorem State.setRst_pending : (s.setRst v).pending = s.pending := rfl
@[simp] theorem State.setRst_readLog : (s.setRst v).readLog = s.readLog := rfl
@[simp] theorem State.setRst_draws : (s.setRst v).draws = s.draws := rfl
end setRst

section setPending
variable (v : List Event)
@[simp] theorem State.setPending_f : (s.setPending v).f = s.f := rfl
@[simp] theorem State.setPending_fbuf : (s.setPending v).fbuf = s.fbuf := rfl
@[simp] theorem State.setPending_flen : (s.setPending v).flen = s.flen := rfl
@[simp] theorem State.setPending_cmdlast : (s.setPending v).cmdlast = s.cmdlast := rfl
@[simp] theorem State.setPending_result : (s.setPending v).result = s.result := rfl
@[simp] theorem State.setPending_shape : (s.setPending v).shape = s.shape := rfl
@[simp] theorem State.setPending_done : (s.setPending v).done = s.done := rfl
@[simp] theorem State.setPending_calcReg : (s.setPending v).calcReg = s.calcReg := rfl
@[simp] theorem State.setPending_rst : (s.setPending v).rst = s.rst := rfl
@[simp] theorem State.setPending_cfg : (s.setPending v).cfg = s.cfg := rfl
@[simp] theorem State.setPending_pending : (s.setPending v).pending = v := rfl
@[simp] theorem State.setPending_readLog : (s.setPending v).readLog = s.readLog := rfl
@[simp] theorem State.setPending_draws : (s.setPending v).draws = s.draws := rfl
end setPending

section setReadLog
variable (v : List Byte)
@[simp] theorem State.setReadLog_f : (s.setReadLog v).f = s.f := rfl
@[simp] theorem State.setReadLog_fbuf : (s.setReadLog v).fbuf = s.fbuf := rfl
@[simp] theorem State.setReadLog_flen : (s.setReadLog v).flen = s.flen := rfl
@[simp] theorem State.setReadLog_cmdlast : (s.setReadLog v).cmdlast = s.cmdlast := rfl
@[simp] theorem State.setReadLog_result : (s.setReadLog v).result = s.result := rfl
@[simp] theorem State.setReadLog_shape : (s.setReadLog v).shape = s.shape := rfl
@[simp] theorem State.setReadLog_done : (s.setReadLog v).done = s.done := rfl
@[simp] theorem State.setReadLog_calcReg : (s.setReadLog v).calcReg = s.calcReg := rfl
@[simp] theorem State.setReadLog_rst : (s.setReadLog v).rst = s.rst := rfl
@[simp] theorem State.setReadLog_cfg : (s.setReadLog v).cfg = s.cfg := rfl
@[simp] theorem State.setReadLog_pending : (s.setReadLog v).pending = s.pending := rfl
@[simp] theorem State.setReadLog_readLog : (s.setReadLog v).readLog = v := rfl
@[simp] theorem State.setReadLog_draws : (s.setReadLog v).draws = s.draws := rfl
end setReadLog

section setDraws
variable (v : Nat)
@[simp] theorem State.setDraws_f : (s.setDraws v).f = s.f := rfl
@[simp] theorem State.setDraws_fbuf : (s.setDraws v).fbuf = s.fbuf := rfl
@[simp] theorem State.setDraws_flen : (s.setDraws v).flen = s.flen := rfl
@[simp] theorem State.setDraws_cmdlast : (s.setDraws v).cmdlast = s.cmdlast := rfl
@[simp] theorem State.setDraws_result : (s.setDraws v).result = s.result := rfl
@[simp] theorem State.setDraws_shape : (s.setDraws v).shape = s.shape := rfl
@[simp] theorem State.setDraws_done : (s.setDraws v).done = s.done := rfl
@[simp] theorem State.setDraws_calcReg : (s.setDraws v).calcReg = s.calcReg := rfl
@[simp] theorem State.setDraws_rst : (s.setDraws v).rst = s.rst := rfl
@[simp] theorem State.setDraws_cfg : (s.setDraws v).cfg = s.cfg := rfl
@[simp] theorem State.setDraws_pending : (s.setDraws v).pending = s.pending := rfl
@[simp] theorem State.setDraws_readLog : (s.setDraws v).readLog = s.readLog := rfl
@[simp] theorem State.setDraws_draws : (s.setDraws v).draws = v := rfl
end setDraws

end Sys2Proof.Machine
end

