-- ==== Sys2Proof/Laws/Ops.lean ====
section
/-! SUPPORT. What each shared operation does to each field, and the reads of the two byte banks. -/

namespace Sys2Proof.Machine

variable (s : State)

section recordCommand
variable (c : Byte)
@[simp] theorem recordCommand_f : (recordCommand c s).f = s.f := rfl
@[simp] theorem recordCommand_fbuf : (recordCommand c s).fbuf = s.fbuf := rfl
@[simp] theorem recordCommand_flen : (recordCommand c s).flen = s.flen := rfl
@[simp] theorem recordCommand_cmdlast : (recordCommand c s).cmdlast = c := rfl
@[simp] theorem recordCommand_result : (recordCommand c s).result = s.result := rfl
@[simp] theorem recordCommand_shape : (recordCommand c s).shape = s.shape := rfl
@[simp] theorem recordCommand_done : (recordCommand c s).done = true := rfl
@[simp] theorem recordCommand_calcReg : (recordCommand c s).calcReg = s.calcReg := rfl
@[simp] theorem recordCommand_rst : (recordCommand c s).rst = s.rst := rfl
@[simp] theorem recordCommand_cfg : (recordCommand c s).cfg = s.cfg := rfl
@[simp] theorem recordCommand_pending : (recordCommand c s).pending = s.pending := rfl
@[simp] theorem recordCommand_readLog : (recordCommand c s).readLog = s.readLog := rfl
@[simp] theorem recordCommand_draws : (recordCommand c s).draws = s.draws := rfl
end recordCommand

section beginCommand
variable (c : Byte)
@[simp] theorem beginCommand_f : (beginCommand c s).f = s.f := rfl
@[simp] theorem beginCommand_fbuf : (beginCommand c s).fbuf = s.fbuf := rfl
@[simp] theorem beginCommand_flen : (beginCommand c s).flen = s.flen := rfl
@[simp] theorem beginCommand_cmdlast : (beginCommand c s).cmdlast = c := rfl
@[simp] theorem beginCommand_result : (beginCommand c s).result = s.result := rfl
@[simp] theorem beginCommand_shape : (beginCommand c s).shape = shapeOfByte c := rfl
@[simp] theorem beginCommand_done : (beginCommand c s).done = true := rfl
@[simp] theorem beginCommand_calcReg : (beginCommand c s).calcReg = s.calcReg := rfl
@[simp] theorem beginCommand_rst : (beginCommand c s).rst = s.rst := rfl
@[simp] theorem beginCommand_cfg : (beginCommand c s).cfg = s.cfg := rfl
@[simp] theorem beginCommand_pending : (beginCommand c s).pending = s.pending := rfl
@[simp] theorem beginCommand_readLog : (beginCommand c s).readLog = s.readLog := rfl
@[simp] theorem beginCommand_draws : (beginCommand c s).draws = s.draws := rfl
end beginCommand

section raise
variable (e : Result)
@[simp] theorem raise_f : (raise e s).f = s.f := rfl
@[simp] theorem raise_fbuf : (raise e s).fbuf = s.fbuf := rfl
@[simp] theorem raise_flen : (raise e s).flen = s.flen := rfl
@[simp] theorem raise_cmdlast : (raise e s).cmdlast = s.cmdlast := rfl
@[simp] theorem raise_result : (raise e s).result = e := rfl
@[simp] theorem raise_shape : (raise e s).shape = s.shape := rfl
@[simp] theorem raise_done : (raise e s).done = s.done := rfl
@[simp] theorem raise_calcReg : (raise e s).calcReg = s.calcReg := rfl
@[simp] theorem raise_rst : (raise e s).rst = s.rst := rfl
@[simp] theorem raise_cfg : (raise e s).cfg = s.cfg := rfl
@[simp] theorem raise_pending : (raise e s).pending = s.pending := rfl
@[simp] theorem raise_readLog : (raise e s).readLog = s.readLog := rfl
@[simp] theorem raise_draws : (raise e s).draws = s.draws := rfl
end raise

section complete
@[simp] theorem complete_f : (complete s).f = s.f := rfl
@[simp] theorem complete_fbuf : (complete s).fbuf = s.fbuf := rfl
@[simp] theorem complete_flen : (complete s).flen = s.flen := rfl
@[simp] theorem complete_cmdlast : (complete s).cmdlast = s.cmdlast := rfl
@[simp] theorem complete_result : (complete s).result = .ok := rfl
@[simp] theorem complete_shape : (complete s).shape = s.shape := rfl
@[simp] theorem complete_done : (complete s).done = s.done := rfl
@[simp] theorem complete_calcReg : (complete s).calcReg = s.calcReg := rfl
@[simp] theorem complete_rst : (complete s).rst = s.rst := rfl
@[simp] theorem complete_cfg : (complete s).cfg = s.cfg := rfl
@[simp] theorem complete_pending : (complete s).pending = s.pending := rfl
@[simp] theorem complete_readLog : (complete s).readLog = s.readLog := rfl
@[simp] theorem complete_draws : (complete s).draws = s.draws := rfl
end complete

section answer
variable (v : Byte)
@[simp] theorem answer_f : (answer v s).f = s.f := rfl
@[simp] theorem answer_fbuf : (answer v s).fbuf = s.fbuf := rfl
@[simp] theorem answer_flen : (answer v s).flen = s.flen := rfl
@[simp] theorem answer_cmdlast : (answer v s).cmdlast = s.cmdlast := rfl
@[simp] theorem answer_result : (answer v s).result = s.result := rfl
@[simp] theorem answer_shape : (answer v s).shape = s.shape := rfl
@[simp] theorem answer_done : (answer v s).done = s.done := rfl
@[simp] theorem answer_calcReg : (answer v s).calcReg = s.calcReg := rfl
@[simp] theorem answer_rst : (answer v s).rst = s.rst := rfl
@[simp] theorem answer_cfg : (answer v s).cfg = s.cfg := rfl
@[simp] theorem answer_pending : (answer v s).pending = s.pending := rfl
@[simp] theorem answer_readLog : (answer v s).readLog = s.readLog ++ [v] := rfl
@[simp] theorem answer_draws : (answer v s).draws = s.draws := rfl
end answer

section writeField
variable (a : Nat) (h : a < 85) (v : Byte)
@[simp] theorem writeField_f : (writeField a h v s).f = s.f.set a v h := rfl
@[simp] theorem writeField_fbuf : (writeField a h v s).fbuf = s.fbuf := rfl
@[simp] theorem writeField_flen : (writeField a h v s).flen = s.flen := rfl
@[simp] theorem writeField_cmdlast : (writeField a h v s).cmdlast = s.cmdlast := rfl
@[simp] theorem writeField_result : (writeField a h v s).result = s.result := rfl
@[simp] theorem writeField_shape : (writeField a h v s).shape = s.shape := rfl
@[simp] theorem writeField_done : (writeField a h v s).done = s.done := rfl
@[simp] theorem writeField_calcReg : (writeField a h v s).calcReg = s.calcReg := rfl
@[simp] theorem writeField_rst : (writeField a h v s).rst = s.rst := rfl
@[simp] theorem writeField_cfg : (writeField a h v s).cfg = s.cfg := rfl
@[simp] theorem writeField_pending : (writeField a h v s).pending = s.pending := rfl
@[simp] theorem writeField_readLog : (writeField a h v s).readLog = s.readLog := rfl
@[simp] theorem writeField_draws : (writeField a h v s).draws = s.draws := rfl
end writeField

section writeCell
variable (i : Nat) (h : i < 85) (v : Byte)
@[simp] theorem writeCell_f : (writeCell i h v s).f = s.f := rfl
@[simp] theorem writeCell_fbuf : (writeCell i h v s).fbuf = s.fbuf.set i v h := rfl
@[simp] theorem writeCell_flen : (writeCell i h v s).flen = s.flen := rfl
@[simp] theorem writeCell_cmdlast : (writeCell i h v s).cmdlast = s.cmdlast := rfl
@[simp] theorem writeCell_result : (writeCell i h v s).result = s.result := rfl
@[simp] theorem writeCell_shape : (writeCell i h v s).shape = s.shape := rfl
@[simp] theorem writeCell_done : (writeCell i h v s).done = s.done := rfl
@[simp] theorem writeCell_calcReg : (writeCell i h v s).calcReg = s.calcReg := rfl
@[simp] theorem writeCell_rst : (writeCell i h v s).rst = s.rst := rfl
@[simp] theorem writeCell_cfg : (writeCell i h v s).cfg = s.cfg := rfl
@[simp] theorem writeCell_pending : (writeCell i h v s).pending = s.pending := rfl
@[simp] theorem writeCell_readLog : (writeCell i h v s).readLog = s.readLog := rfl
@[simp] theorem writeCell_draws : (writeCell i h v s).draws = s.draws := rfl
end writeCell

section packBody
variable (sh : Shape)
@[simp] theorem packBody_f : (packBody sh s).f = s.f := by simp [packBody]
theorem packBody_fbuf : (packBody sh s).fbuf = storeBytes s.fbuf (frameImage sh s) := by simp [packBody]
@[simp] theorem packBody_flen : (packBody sh s).flen = BitVec.ofNat 16 (frameSize sh) := by simp [packBody]
@[simp] theorem packBody_cmdlast : (packBody sh s).cmdlast = s.cmdlast := by simp [packBody]
@[simp] theorem packBody_result : (packBody sh s).result = .ok := by simp [packBody]
@[simp] theorem packBody_shape : (packBody sh s).shape = s.shape := by simp [packBody]
@[simp] theorem packBody_done : (packBody sh s).done = s.done := by simp [packBody]
@[simp] theorem packBody_calcReg : (packBody sh s).calcReg = s.calcReg := by simp [packBody]
@[simp] theorem packBody_rst : (packBody sh s).rst = s.rst := by simp [packBody]
@[simp] theorem packBody_cfg : (packBody sh s).cfg = s.cfg := by simp [packBody]
@[simp] theorem packBody_pending : (packBody sh s).pending = s.pending := by simp [packBody]
@[simp] theorem packBody_readLog : (packBody sh s).readLog = s.readLog := by simp [packBody]
@[simp] theorem packBody_draws : (packBody sh s).draws = s.draws := by simp [packBody]
end packBody

section loadFields
variable (sh : Shape)
theorem loadFields_f : (loadFields sh s).f = (storeBytes s.f (rxBytes sh s)).set 0x54 (rxCheck sh s) := by simp [loadFields]
@[simp] theorem loadFields_fbuf : (loadFields sh s).fbuf = s.fbuf := by simp [loadFields]
@[simp] theorem loadFields_flen : (loadFields sh s).flen = s.flen := by simp [loadFields]
@[simp] theorem loadFields_cmdlast : (loadFields sh s).cmdlast = s.cmdlast := by simp [loadFields]
@[simp] theorem loadFields_result : (loadFields sh s).result = s.result := by simp [loadFields]
@[simp] theorem loadFields_shape : (loadFields sh s).shape = s.shape := by simp [loadFields]
@[simp] theorem loadFields_done : (loadFields sh s).done = s.done := by simp [loadFields]
@[simp] theorem loadFields_calcReg : (loadFields sh s).calcReg = s.calcReg := by simp [loadFields]
@[simp] theorem loadFields_rst : (loadFields sh s).rst = s.rst := by simp [loadFields]
@[simp] theorem loadFields_cfg : (loadFields sh s).cfg = s.cfg := by simp [loadFields]
@[simp] theorem loadFields_pending : (loadFields sh s).pending = s.pending := by simp [loadFields]
@[simp] theorem loadFields_readLog : (loadFields sh s).readLog = s.readLog := by simp [loadFields]
@[simp] theorem loadFields_draws : (loadFields sh s).draws = s.draws := by simp [loadFields]
end loadFields

section sealBody
variable (sh : Shape)
@[simp] theorem sealBody_f : (sealBody sh s).f = s.f.set 0x54 (fieldCsum sh s) := by simp [sealBody]
@[simp] theorem sealBody_fbuf : (sealBody sh s).fbuf = s.fbuf := by simp [sealBody]
@[simp] theorem sealBody_flen : (sealBody sh s).flen = s.flen := by simp [sealBody]
@[simp] theorem sealBody_cmdlast : (sealBody sh s).cmdlast = s.cmdlast := by simp [sealBody]
@[simp] theorem sealBody_result : (sealBody sh s).result = .ok := by simp [sealBody]
@[simp] theorem sealBody_shape : (sealBody sh s).shape = s.shape := by simp [sealBody]
@[simp] theorem sealBody_done : (sealBody sh s).done = s.done := by simp [sealBody]
@[simp] theorem sealBody_calcReg : (sealBody sh s).calcReg = fieldCsum sh s := by simp [sealBody]
@[simp] theorem sealBody_rst : (sealBody sh s).rst = s.rst := by simp [sealBody]
@[simp] theorem sealBody_cfg : (sealBody sh s).cfg = s.cfg := by simp [sealBody]
@[simp] theorem sealBody_pending : (sealBody sh s).pending = s.pending := by simp [sealBody]
@[simp] theorem sealBody_readLog : (sealBody sh s).readLog = s.readLog := by simp [sealBody]
@[simp] theorem sealBody_draws : (sealBody sh s).draws = s.draws := by simp [sealBody]
end sealBody

end Sys2Proof.Machine
end

