-- ==== Sys2Proof/Laws/Codec.lean ====
section
/-! SUPPORT. What each command does, once: the arm behind each shape-indexed command, the checks, and the cells that PACK and the loading of fields leave. -/

namespace Sys2Proof.Machine

/-! ## Sizes and shape bits -/

@[simp] theorem frameFields_M : frameFields .M = 84 := rfl
@[simp] theorem frameFields_S : frameFields .S = 4 := rfl
@[simp] theorem frameSize_M : frameSize .M = 85 := rfl
@[simp] theorem frameSize_S : frameSize .S = 5 := rfl

theorem frameSize_le (sh : Shape) : frameSize sh ≤ 85 := by cases sh <;> decide

@[simp] theorem frameSize_toNat (sh : Shape) : (BitVec.ofNat 16 (frameSize sh)).toNat = frameSize sh := by
  cases sh <;> rfl

@[simp] theorem shapeOfByte_pack (sh : Shape) : shapeOfByte (encode (.pack sh)) = sh := by
  cases sh <;> decide
@[simp] theorem shapeOfByte_seal (sh : Shape) : shapeOfByte (encode (.seal sh)) = sh := by
  cases sh <;> decide
@[simp] theorem shapeOfByte_unpack (sh : Shape) : shapeOfByte (encode (.unpack sh)) = sh := by
  cases sh <;> decide
@[simp] theorem shapeOfByte_verify (sh : Shape) : shapeOfByte (encode (.verify sh)) = sh := by
  cases sh <;> decide
@[simp] theorem shapeOfByte_recv (sh : Shape) : shapeOfByte (encode (.recv sh)) = sh := by
  cases sh <;> decide

/-! ## The arms, by shape -/

theorem exec_pack (sh : Shape) (s : State) :
    exec (.pack sh) s = .next (packBody sh (beginCommand (encode (.pack sh)) s)) := by cases sh <;> rfl
theorem exec_seal (sh : Shape) (s : State) :
    exec (.seal sh) s = .next (sealBody sh (beginCommand (encode (.seal sh)) s)) := by cases sh <;> rfl
theorem exec_unpack (sh : Shape) (s : State) :
    exec (.unpack sh) s = .next (unpackBody sh (beginCommand (encode (.unpack sh)) s)) := by
  cases sh <;> rfl
theorem exec_verify (sh : Shape) (s : State) :
    exec (.verify sh) s = .next (verifyBody sh (beginCommand (encode (.verify sh)) s)) := by
  cases sh <;> rfl
theorem exec_recv (sh : Shape) (s : State) :
    exec (.recv sh) s = .next (recvBody sh (beginCommand (encode (.recv sh)) s)) := by cases sh <;> rfl

/-- The twelve commands, by operation and shape. -/
theorem instr_cases_by_shape (i : Instr) :
    i = .nop ∨ i = .rxclr ∨ ∃ sh, i = .pack sh ∨ i = .seal sh ∨ i = .unpack sh ∨ i = .verify sh ∨
      i = .recv sh := by
  cases i <;> first
    | exact .inl rfl
    | exact .inr (.inl rfl)
    | exact .inr (.inr ⟨.M, by decide⟩)
    | exact .inr (.inr ⟨.S, by decide⟩)

/-! ## The checks -/

theorem checkLength_of_eq {sh : Shape} {s : State} (rest : State → State)
    (h : s.flen.toNat = frameSize sh) : checkLength sh rest s = rest s := by
  simp [checkLength, h]

theorem checkLength_of_ne {sh : Shape} {s : State} (rest : State → State)
    (h : s.flen.toNat ≠ frameSize sh) : checkLength sh rest s = raise .framingError s := by
  simp [checkLength, h]

theorem checkCsum_of_eq {sh : Shape} {s : State} (rest : State → State)
    (h : rxCsum sh s = rxCheck sh s) : checkCsum sh rest s = rest (s.setCalc (rxCsum sh s)) := by
  simp [checkCsum, h]

theorem checkCsum_of_ne {sh : Shape} {s : State} (rest : State → State)
    (h : rxCsum sh s ≠ rxCheck sh s) :
    checkCsum sh rest s = raise .corruptFrame (s.setCalc (rxCsum sh s)) := by
  simp [checkCsum, h]

/-! ## Cells -/

@[simp] theorem storeBytes_getElem {n : Nat} (v : Vector Byte n) (bs : List Byte) (i : Nat)
    (h : i < n) : (storeBytes v bs)[i] = bs.getD i v[i] := by
  simp [storeBytes]

/-- A byte of the first `k` of a bank, or `d` beyond them. -/
theorem getD_take_toList {n : Nat} (v : Vector Byte n) (k i : Nat) (h : i < n) (d : Byte) :
    (v.toList.take k).getD i d = if i < k then v[i] else d := by
  have hi : v.toList[i]? = some v[i] := by simp [h]
  rw [List.getD_eq_getElem?_getD, List.getElem?_take]
  split <;> simp [h]

theorem fieldBytes_length (sh : Shape) (s : State) : (fieldBytes sh s).length = frameFields sh := by
  cases sh <;> simp [fieldBytes]

theorem rxBytes_length (sh : Shape) (s : State) : (rxBytes sh s).length = frameFields sh := by
  cases sh <;> simp [rxBytes]

theorem frameBytes_length (sh : Shape) (s : State) : (frameBytes sh s).length = frameSize sh := by
  cases sh <;> simp [frameBytes]

theorem frameImage_length (sh : Shape) (s : State) : (frameImage sh s).length = frameSize sh := by
  simp [frameImage, fieldBytes_length, frameSize]

theorem fieldBytes_getD (sh : Shape) (s : State) (i : Nat) (h : i < 85) (d : Byte) :
    (fieldBytes sh s).getD i d = if i < frameFields sh then s.f[i] else d := by
  unfold fieldBytes
  exact getD_take_toList s.f (frameFields sh) i h d

theorem rxBytes_getD (sh : Shape) (s : State) (i : Nat) (h : i < 85) (d : Byte) :
    (rxBytes sh s).getD i d = if i < frameFields sh then s.fbuf[i] else d := by
  unfold rxBytes
  exact getD_take_toList s.fbuf (frameFields sh) i h d

/-- PACK's frame in the buffer (R121, R122): the fields, then CHK, then what the cells held. -/
theorem packBody_cell (sh : Shape) (s : State) (i : Nat) (h : i < 85) :
    (packBody sh s).fbuf[i] =
      if i < frameFields sh then s.f[i] else if i = frameFields sh then chkReg s else s.fbuf[i] := by
  have hl := fieldBytes_length sh s
  simp only [packBody_fbuf, storeBytes_getElem, frameImage]
  by_cases h1 : i < frameFields sh
  · rw [List.getD_append _ _ _ _ (hl ▸ h1)]
    simp only [fieldBytes_getD sh s i h, h1, if_true]
  · rw [List.getD_append_right _ _ _ _ (hl ▸ Nat.le_of_not_lt h1), hl]
    by_cases h2 : i = frameFields sh
    · simp [h2]
    · have : i - frameFields sh ≠ 0 := by omega
      simp [h1, h2, this]

/-- The fields loaded from the buffer (R123, R124): the frame's bytes positionally, and CHK from its
last byte. -/
theorem loadFields_cell (sh : Shape) (s : State) (i : Nat) (h : i < 85) :
    (loadFields sh s).f[i] =
      if i = 84 then rxCheck sh s else if i < frameFields sh then s.fbuf[i] else s.f[i] := by
  simp only [loadFields_f, Vector.getElem_set, storeBytes_getElem, rxBytes_getD sh s i h]
  by_cases h1 : i = 84
  · simp [h1]
  · have : ¬ 84 = i := by omega
    simp [h1, this]

/-! ## What a check sees does not depend on the prologue -/

@[simp] theorem rxBytes_beginCommand (sh : Shape) (c : Byte) (s : State) :
    rxBytes sh (beginCommand c s) = rxBytes sh s := by simp [rxBytes]
@[simp] theorem rxCheck_beginCommand (sh : Shape) (c : Byte) (s : State) :
    rxCheck sh (beginCommand c s) = rxCheck sh s := by simp [rxCheck]
@[simp] theorem rxCsum_beginCommand (sh : Shape) (c : Byte) (s : State) :
    rxCsum sh (beginCommand c s) = rxCsum sh s := by simp [rxCsum]
@[simp] theorem fieldBytes_beginCommand (sh : Shape) (c : Byte) (s : State) :
    fieldBytes sh (beginCommand c s) = fieldBytes sh s := by simp [fieldBytes]
@[simp] theorem fieldCsum_beginCommand (sh : Shape) (c : Byte) (s : State) :
    fieldCsum sh (beginCommand c s) = fieldCsum sh s := by simp [fieldCsum]
@[simp] theorem chkReg_beginCommand (c : Byte) (s : State) :
    chkReg (beginCommand c s) = chkReg s := by simp [chkReg]
@[simp] theorem rxCheck_setCalc (sh : Shape) (v : Byte) (s : State) :
    rxCheck sh (s.setCalc v) = rxCheck sh s := by simp [rxCheck]
@[simp] theorem rxBytes_setCalc (sh : Shape) (v : Byte) (s : State) :
    rxBytes sh (s.setCalc v) = rxBytes sh s := by simp [rxBytes]

end Sys2Proof.Machine
end

