-- ==== Sys2Proof/Laws/Guard.lean ====
section
/-! SUPPORT. Each checking command in each of its outcomes: UNPACK, VERIFY and RECV with a wrong length, a wrong checksum, or a valid frame; and P2 of the uninterpreted checksum functions. -/

namespace Sys2Proof.Machine

/-- The uninterpreted checksum functions have P2 (R140; log 1). -/
theorem csum_other_detectsSingleByte (n : Nat) : DetectsSingleByte (csum (.other n)) :=
  Subtype.property _

variable {sh : Shape} {s : State}

theorem exec_unpack_framing (h : s.flen.toNat ≠ frameSize sh) :
    exec (.unpack sh) s = .next (raise .framingError (beginCommand (encode (.unpack sh)) s)) := by
  rw [exec_unpack, unpackBody, checkLength_of_ne _ (by simpa using h)]

theorem exec_unpack_ok (h : s.flen.toNat = frameSize sh) :
    exec (.unpack sh) s =
      .next (complete (loadFields sh (beginCommand (encode (.unpack sh)) s))) := by
  rw [exec_unpack, unpackBody, checkLength_of_eq _ (by simpa using h)]

theorem exec_verify_framing (h : s.flen.toNat ≠ frameSize sh) :
    exec (.verify sh) s = .next (raise .framingError (beginCommand (encode (.verify sh)) s)) := by
  rw [exec_verify, verifyBody, checkLength_of_ne _ (by simpa using h)]

theorem exec_verify_corrupt (h : s.flen.toNat = frameSize sh) (hc : rxCsum sh s ≠ rxCheck sh s) :
    exec (.verify sh) s = .next (raise .corruptFrame
      ((beginCommand (encode (.verify sh)) s).setCalc (rxCsum sh s))) := by
  rw [exec_verify, verifyBody, checkLength_of_eq _ (by simpa using h),
    checkCsum_of_ne _ (by simpa using hc), rxCsum_beginCommand]

theorem exec_verify_ok (h : s.flen.toNat = frameSize sh) (hc : rxCsum sh s = rxCheck sh s) :
    exec (.verify sh) s = .next (complete
      ((beginCommand (encode (.verify sh)) s).setCalc (rxCsum sh s))) := by
  rw [exec_verify, verifyBody, checkLength_of_eq _ (by simpa using h),
    checkCsum_of_eq _ (by simpa using hc), rxCsum_beginCommand]

theorem exec_recv_framing (h : s.flen.toNat ≠ frameSize sh) :
    exec (.recv sh) s = .next (raise .framingError (beginCommand (encode (.recv sh)) s)) := by
  rw [exec_recv, recvBody, checkLength_of_ne _ (by simpa using h)]

theorem exec_recv_corrupt (h : s.flen.toNat = frameSize sh) (hc : rxCsum sh s ≠ rxCheck sh s) :
    exec (.recv sh) s = .next (raise .corruptFrame
      ((beginCommand (encode (.recv sh)) s).setCalc (rxCsum sh s))) := by
  rw [exec_recv, recvBody, checkLength_of_eq _ (by simpa using h),
    checkCsum_of_ne _ (by simpa using hc), rxCsum_beginCommand]

theorem exec_recv_ok (h : s.flen.toNat = frameSize sh) (hc : rxCsum sh s = rxCheck sh s) :
    exec (.recv sh) s = .next (complete (loadFields sh
      ((beginCommand (encode (.recv sh)) s).setCalc (rxCsum sh s)))) := by
  rw [exec_recv, recvBody, checkLength_of_eq _ (by simpa using h),
    checkCsum_of_eq _ (by simpa using hc), rxCsum_beginCommand]

end Sys2Proof.Machine
end

