-- ==== Sys2Proof/Laws/Exec.lean ====
section
/-! SUPPORT. Every command answers a next state with its prologue done and the port as it was; what a CMD write and a host write can answer. -/

namespace Sys2Proof.Machine

/-- Every command answers a next state, in which its prologue is done (R163) and what is not of the
block is as it was. -/
theorem exec_answers (i : Instr) (s : State) : ∃ t, exec i s = .next t ∧
    t.cmdlast = encode i ∧ t.done = true ∧
    t.shape = (if i = .nop then s.shape else shapeOfByte (encode i)) ∧
    t.rst = s.rst ∧ t.cfg = s.cfg ∧ t.pending = s.pending ∧ t.readLog = s.readLog ∧
    t.draws = s.draws := by
  obtain rfl | rfl | ⟨sh, rfl | rfl | rfl | rfl | rfl⟩ := instr_cases_by_shape i
  · exact ⟨_, rfl, by simp⟩
  · exact ⟨_, rfl, by simp⟩
  · exact ⟨_, exec_pack sh s, by cases sh <;> simp [Instr.pack]⟩
  · exact ⟨_, exec_seal sh s, by cases sh <;> simp [Instr.seal]⟩
  · by_cases h : s.flen.toNat = frameSize sh
    · exact ⟨_, exec_unpack_ok h, by cases sh <;> simp [Instr.unpack]⟩
    · exact ⟨_, exec_unpack_framing h, by cases sh <;> simp [Instr.unpack]⟩
  · by_cases h : s.flen.toNat = frameSize sh
    · by_cases hc : rxCsum sh s = rxCheck sh s
      · exact ⟨_, exec_verify_ok h hc, by cases sh <;> simp [Instr.verify]⟩
      · exact ⟨_, exec_verify_corrupt h hc, by cases sh <;> simp [Instr.verify]⟩
    · exact ⟨_, exec_verify_framing h, by cases sh <;> simp [Instr.verify]⟩
  · by_cases h : s.flen.toNat = frameSize sh
    · by_cases hc : rxCsum sh s = rxCheck sh s
      · exact ⟨_, exec_recv_ok h hc, by cases sh <;> simp [Instr.recv]⟩
      · exact ⟨_, exec_recv_corrupt h hc, by cases sh <;> simp [Instr.recv]⟩
    · exact ⟨_, exec_recv_framing h, by cases sh <;> simp [Instr.recv]⟩

/-- All that a command other than NOP can do. -/
theorem exec_cases {i : Instr} {s t : State} (h : exec i s = .next t) (hi : i ≠ .nop) :
    (i = .rxclr ∧ t = complete ((beginCommand (encode .rxclr) s).setFlen 0)) ∨
    (∃ sh, i = .pack sh ∧ t = packBody sh (beginCommand (encode i) s)) ∨
    (∃ sh, i = .seal sh ∧ t = sealBody sh (beginCommand (encode i) s)) ∨
    (∃ sh, i = .unpack sh ∧ s.flen.toNat = frameSize sh ∧
      t = complete (loadFields sh (beginCommand (encode i) s))) ∨
    (∃ sh, (i = .unpack sh ∨ i = .verify sh ∨ i = .recv sh) ∧ s.flen.toNat ≠ frameSize sh ∧
      t = raise .framingError (beginCommand (encode i) s)) ∨
    (∃ sh, (i = .verify sh ∨ i = .recv sh) ∧ s.flen.toNat = frameSize sh ∧
      rxCsum sh s ≠ rxCheck sh s ∧
      t = raise .corruptFrame ((beginCommand (encode i) s).setCalc (rxCsum sh s))) ∨
    (∃ sh, i = .verify sh ∧ s.flen.toNat = frameSize sh ∧ rxCsum sh s = rxCheck sh s ∧
      t = complete ((beginCommand (encode i) s).setCalc (rxCsum sh s))) ∨
    (∃ sh, i = .recv sh ∧ s.flen.toNat = frameSize sh ∧ rxCsum sh s = rxCheck sh s ∧
      t = complete (loadFields sh ((beginCommand (encode i) s).setCalc (rxCsum sh s)))) := by
  obtain rfl | rfl | ⟨sh, rfl | rfl | rfl | rfl | rfl⟩ := instr_cases_by_shape i
  · exact absurd rfl hi
  · left
    change Host.Outcome.next _ = _ at h
    injection h with h
    exact ⟨rfl, h.symm⟩
  · right; left
    rw [exec_pack] at h
    injection h with h
    exact ⟨sh, rfl, h.symm⟩
  · right; right; left
    rw [exec_seal] at h
    injection h with h
    exact ⟨sh, rfl, h.symm⟩
  · right; right; right
    by_cases hl : s.flen.toNat = frameSize sh
    · left
      rw [exec_unpack_ok hl] at h
      injection h with h
      exact ⟨sh, rfl, hl, h.symm⟩
    · right; left
      rw [exec_unpack_framing hl] at h
      injection h with h
      exact ⟨sh, .inl rfl, hl, h.symm⟩
  · right; right; right; right
    by_cases hl : s.flen.toNat = frameSize sh
    · right
      by_cases hc : rxCsum sh s = rxCheck sh s
      · right; left
        rw [exec_verify_ok hl hc] at h
        injection h with h
        exact ⟨sh, rfl, hl, hc, h.symm⟩
      · left
        rw [exec_verify_corrupt hl hc] at h
        injection h with h
        exact ⟨sh, .inl rfl, hl, hc, h.symm⟩
    · left
      rw [exec_verify_framing hl] at h
      injection h with h
      exact ⟨sh, .inr (.inl rfl), hl, h.symm⟩
  · right; right; right; right
    by_cases hl : s.flen.toNat = frameSize sh
    · right
      by_cases hc : rxCsum sh s = rxCheck sh s
      · right; right
        rw [exec_recv_ok hl hc] at h
        injection h with h
        exact ⟨sh, rfl, hl, hc, h.symm⟩
      · left
        rw [exec_recv_corrupt hl hc] at h
        injection h with h
        exact ⟨sh, .inr rfl, hl, hc, h.symm⟩
    · left
      rw [exec_recv_framing hl] at h
      injection h with h
      exact ⟨sh, .inr (.inr rfl), hl, h.symm⟩

theorem cmdWrite_legal {c : Byte} {i : Instr} (h : decode c = .legal i) (s : State) :
    cmdWrite c s = exec i s := by simp [cmdWrite, h]

theorem cmdWrite_illegal {c : Byte} {why : Reject} (h : decode c = .illegal why) (s : State) :
    cmdWrite c s = .next (raise .illegalCmd (beginCommand c s)) := by
  simp [cmdWrite, h, execIllegal]

/-- What a host write to an address other than CMD can answer (R165): the state with one field
register, one cell or the length counter changed, or the state itself. -/
theorem memWrite_cases {a : Byte} (v : Byte) (s : State) (h : a ≠ 0x60) :
    ∃ t, memWrite a v s = .next t ∧
      ((∃ (i : Nat) (hi : i < 85), t = writeField i hi v s) ∨
        (∃ n, t = s.setFlen n) ∨ t = rxPush v s ∨
        (∃ (i : Nat) (hi : i < 85), t = writeCell i hi v s) ∨ t = s) := by
  simp only [memWrite, h, if_false]
  split
  · exact ⟨_, rfl, .inl ⟨_, _, rfl⟩⟩
  · split
    · exact ⟨_, rfl, .inr (.inr (.inr (.inr rfl)))⟩
    · split
      · exact ⟨_, rfl, .inr (.inl ⟨_, rfl⟩)⟩
      · split
        · exact ⟨_, rfl, .inr (.inl ⟨_, rfl⟩)⟩
        · split
          · exact ⟨_, rfl, .inr (.inr (.inl rfl))⟩
          · split
            · exact ⟨_, rfl, .inr (.inr (.inr (.inl ⟨_, _, rfl⟩)))⟩
            · exact ⟨_, rfl, .inr (.inr (.inr (.inr rfl)))⟩

/-- RXPUSH's two cases (R166). -/
theorem rxPush_cases (v : Byte) (s : State) :
    (∃ h : s.flen.toNat < 85,
      rxPush v s = (writeCell s.flen.toNat h v s).setFlen (satInc16 s.flen)) ∨
    (85 ≤ s.flen.toNat ∧ rxPush v s = s.setFlen (satInc16 s.flen)) := by
  by_cases h : s.flen.toNat < 85
  · exact .inl ⟨h, by simp only [rxPush, h, dite_true]⟩
  · exact .inr ⟨Nat.le_of_not_lt h, by simp only [rxPush, h, dite_false]⟩

/-- `sat_inc16` as a number (R14). -/
theorem satInc16_toNat (n : Half) : (satInc16 n).toNat = min (n.toNat + 1) 0xFFFF := by
  have := n.isLt
  unfold satInc16
  split
  · next h => subst h; rfl
  · next h =>
    have hn : n.toNat ≠ 0xFFFF := fun g => h (BitVec.eq_of_toNat_eq g)
    rw [BitVec.toNat_add]
    simp
    omega

end Sys2Proof.Machine
end

