-- ==== Sys2Proof/Laws/Frames.lean ====
section
/-! SUPPORT. The frame in the buffer and the frame image of the registers, byte by byte, and what PACK makes of one from the other. -/

namespace Sys2Proof.Machine

theorem frameFields_lt' (sh : Shape) : frameFields sh < 85 := frameFields_lt sh

theorem frameSize_eq (sh : Shape) : frameSize sh = frameFields sh + 1 := rfl

theorem frameBytes_getElem? (sh : Shape) (s : State) (i : Nat) :
    (frameBytes sh s)[i]? =
      if h : i < frameSize sh then some (s.fbuf[i]'(Nat.lt_of_lt_of_le h (frameSize_le sh)))
      else none := by
  have := frameSize_le sh
  unfold frameBytes
  rw [List.getElem?_take]
  split
  · next h =>
    have h85 : i < 85 := by omega
    simp [h85]
  · rfl

theorem fieldBytes_getElem (sh : Shape) (s : State) (i : Nat) (h : i < (fieldBytes sh s).length)
    (h85 : i < 85) : (fieldBytes sh s)[i] = s.f[i] := by
  have hi : i < frameFields sh := by rwa [fieldBytes_length] at h
  have hg := fieldBytes_getD sh s i h85 0
  rw [List.getD_eq_getElem _ _ h] at hg
  simpa [hi] using hg

theorem rxBytes_getElem (sh : Shape) (s : State) (i : Nat) (h : i < (rxBytes sh s).length)
    (h85 : i < 85) : (rxBytes sh s)[i] = s.fbuf[i] := by
  have hi : i < frameFields sh := by rwa [rxBytes_length] at h
  have hg := rxBytes_getD sh s i h85 0
  rw [List.getD_eq_getElem _ _ h] at hg
  simpa [hi] using hg

theorem frameImage_getElem? (sh : Shape) (s : State) (i : Nat) :
    (frameImage sh s)[i]? =
      if h : i < frameFields sh then some (s.f[i]'(Nat.lt_trans h (frameFields_lt sh)))
      else if i = frameFields sh then some (chkReg s) else none := by
  have hlt := frameFields_lt' sh
  have hl := fieldBytes_length sh s
  unfold frameImage
  by_cases h : i < frameFields sh
  · rw [List.getElem?_append_left (hl ▸ h), List.getElem?_eq_getElem (hl ▸ h),
      fieldBytes_getElem sh s i (hl ▸ h) (by omega)]
    simp [h]
  · rw [List.getElem?_append_right (hl ▸ Nat.le_of_not_lt h), hl]
    by_cases h2 : i = frameFields sh
    · simp [h2]
    · obtain ⟨k, hk⟩ := Nat.exists_eq_succ_of_ne_zero (by omega : i - frameFields sh ≠ 0)
      simp [h, h2, hk]

/-- Two states whose first `NF(sh)` field registers are equal have the same field bytes. -/
theorem fieldBytes_congr {sh : Shape} {s t : State}
    (h : ∀ (i : Nat) (hi : i < 85), i < frameFields sh → t.f[i] = s.f[i]) :
    fieldBytes sh t = fieldBytes sh s := by
  apply List.ext_getElem
  · rw [fieldBytes_length, fieldBytes_length]
  · intro i h1 h2
    have hi : i < frameFields sh := by rwa [fieldBytes_length] at h1
    have := frameFields_lt' sh
    rw [fieldBytes_getElem sh t i h1 (by omega), fieldBytes_getElem sh s i h2 (by omega),
      h i (by omega) hi]

/-- Two states whose first `NF(sh)` cells are equal have received the same bytes. -/
theorem rxBytes_congr {sh : Shape} {s t : State}
    (h : ∀ (i : Nat) (hi : i < 85), i < frameFields sh → t.fbuf[i] = s.fbuf[i]) :
    rxBytes sh t = rxBytes sh s := by
  apply List.ext_getElem
  · rw [rxBytes_length, rxBytes_length]
  · intro i h1 h2
    have hi : i < frameFields sh := by rwa [rxBytes_length] at h1
    have := frameFields_lt' sh
    rw [rxBytes_getElem sh t i h1 (by omega), rxBytes_getElem sh s i h2 (by omega),
      h i (by omega) hi]

/-! ## After PACK -/

theorem packBody_flen_toNat (sh : Shape) (s : State) : (packBody sh s).flen.toNat = frameSize sh := by
  rw [packBody_flen, frameSize_toNat]

theorem rxCheck_packBody (sh : Shape) (s : State) : rxCheck sh (packBody sh s) = chkReg s := by
  unfold rxCheck
  rw [packBody_cell _ _ _ (frameFields_lt sh)]
  simp

theorem rxBytes_packBody (sh : Shape) (s : State) : rxBytes sh (packBody sh s) = fieldBytes sh s := by
  apply List.ext_getElem
  · rw [rxBytes_length, fieldBytes_length]
  · intro i h1 h2
    have hi : i < frameFields sh := by rwa [rxBytes_length] at h1
    have := frameFields_lt' sh
    rw [rxBytes_getElem sh _ i h1 (by omega), fieldBytes_getElem sh s i h2 (by omega),
      packBody_cell _ _ _ (by omega)]
    simp [hi]

theorem frameBytes_packBody (sh : Shape) (s : State) :
    frameBytes sh (packBody sh s) = frameImage sh s := by
  apply List.ext_getElem?
  intro i
  rw [frameBytes_getElem?, frameImage_getElem?]
  have := frameFields_lt' sh
  by_cases h : i < frameSize sh
  · have hs := frameSize_eq sh
    rw [dif_pos h, packBody_cell _ _ _ (by omega)]
    by_cases h1 : i < frameFields sh
    · simp [h1]
    · have : i = frameFields sh := by omega
      simp [this]
  · have hs := frameSize_eq sh
    rw [dif_neg h, dif_neg (by omega), if_neg (by omega)]

end Sys2Proof.Machine
end

