-- ==== Sys2Proof/Laws/PerInstr.lean ====
section
/-! SUPPORT. What is said of every command as syntax, one lemma for each constructor: its fields pass the checks, its byte carries exactly those fields, and it lies in the lower 16 bytes. -/

namespace Sys2Proof.Laws

/-- The fields of a command are well-formed, cutting its byte gives them back, and RSV is clear (R97, R98). -/
def RoundTrip.Statement (i : Instr) : Prop :=
  i.wellFormed = true ∧ CmdWord.ofByte (encode i) = i.cmdWord ∧ (encode i).toNat < 16

theorem RoundTrip.nop : RoundTrip.Statement .nop := by unfold RoundTrip.Statement; decide
theorem RoundTrip.packM : RoundTrip.Statement .packM := by unfold RoundTrip.Statement; decide
theorem RoundTrip.sealM : RoundTrip.Statement .sealM := by unfold RoundTrip.Statement; decide
theorem RoundTrip.unpackM : RoundTrip.Statement .unpackM := by unfold RoundTrip.Statement; decide
theorem RoundTrip.verifyM : RoundTrip.Statement .verifyM := by unfold RoundTrip.Statement; decide
theorem RoundTrip.recvM : RoundTrip.Statement .recvM := by unfold RoundTrip.Statement; decide
theorem RoundTrip.rxclr : RoundTrip.Statement .rxclr := by unfold RoundTrip.Statement; decide
theorem RoundTrip.packS : RoundTrip.Statement .packS := by unfold RoundTrip.Statement; decide
theorem RoundTrip.sealS : RoundTrip.Statement .sealS := by unfold RoundTrip.Statement; decide
theorem RoundTrip.unpackS : RoundTrip.Statement .unpackS := by unfold RoundTrip.Statement; decide
theorem RoundTrip.verifyS : RoundTrip.Statement .verifyS := by unfold RoundTrip.Statement; decide
theorem RoundTrip.recvS : RoundTrip.Statement .recvS := by unfold RoundTrip.Statement; decide

end Sys2Proof.Laws
end

