-- ==== Sys2Proof/Laws/Step.lean ====
section
/-! SUPPORT. What a step can do, said once; what a host write leaves of the port; and when a read of one address is the same in two states. -/

namespace Sys2Proof.Machine

/-- A host write answers a next state and leaves what is not of the block. -/
theorem memWrite_answers (a v : Byte) (s : State) : ∃ t, memWrite a v s = .next t ∧
    t.rst = s.rst ∧ t.cfg = s.cfg ∧ t.pending = s.pending ∧ t.readLog = s.readLog ∧
    t.draws = s.draws := by
  by_cases h : a = 0x60
  · subst h
    show ∃ t, cmdWrite v s = .next t ∧ _
    cases hd : decode v with
    | legal i =>
      obtain ⟨t, h, h1⟩ := exec_answers i s
      exact ⟨t, by rw [cmdWrite_legal hd, h], by simp [h1]⟩
    | illegal w => exact ⟨_, cmdWrite_illegal hd s, by simp⟩
  · obtain ⟨t, ht, h1⟩ := memWrite_cases v s h
    refine ⟨t, ht, ?_⟩
    obtain ⟨i, hi, rfl⟩ | ⟨n, rfl⟩ | rfl | ⟨i, hi, rfl⟩ | rfl := h1
    · simp
    · simp
    · obtain ⟨h, e⟩ | ⟨h, e⟩ := rxPush_cases v s <;> rw [e] <;> simp
    · simp
    · simp

/-- All that a step can do: hold the state, take RST up or down, turn an access away while RST is
asserted, answer a read, or perform a write. -/
theorem step_cases {s t : State} (h : step s = .next t) :
    (s.pending = [] ∧ t = s) ∨
    (∃ rest, s.pending = .rst true :: rest ∧ t = assertRst (s.setPending rest)) ∨
    (∃ rest, s.pending = .rst false :: rest ∧ t = releaseRst (s.setPending rest)) ∨
    (∃ rest a, s.pending = .host a :: rest ∧ s.rst = true ∧
      t = accessInReset a (s.setPending rest)) ∨
    (∃ rest a, s.pending = .host (.read a) :: rest ∧ s.rst = false ∧
      t = answer (memRead (s.setPending rest) a) (s.setPending rest)) ∨
    (∃ rest a v, s.pending = .host (.write a v) :: rest ∧ s.rst = false ∧
      memWrite a v (s.setPending rest) = .next t) := by
  unfold step nextEvent at h
  cases hp : s.pending with
  | nil =>
    rw [hp] at h
    simp at h
    exact .inl ⟨rfl, h.symm⟩
  | cons e rest =>
    rw [hp] at h
    simp only at h
    rcases e with (_ | _) | a
    · simp [handleEvent] at h
      exact .inr (.inr (.inl ⟨rest, rfl, h.symm⟩))
    · simp [handleEvent] at h
      exact .inr (.inl ⟨rest, rfl, h.symm⟩)
    · simp only [handleEvent, State.setPending_rst] at h
      by_cases hr : s.rst = true
      · simp only [hr, if_true] at h
        simp at h
        exact .inr (.inr (.inr (.inl ⟨rest, a, rfl, hr, h.symm⟩)))
      · simp only [hr] at h
        simp at hr
        cases a with
        | read a =>
          simp [hostAccess] at h
          exact .inr (.inr (.inr (.inr (.inl ⟨rest, a, rfl, hr, h.symm⟩))))
        | write a v => exact .inr (.inr (.inr (.inr (.inr ⟨rest, a, v, rfl, hr, h⟩))))

/-- A step whose event is a host write that answers. -/
theorem step_write {s t : State} {a v : Byte} {rest : List Event} (hr : s.rst = false)
    (hp : s.pending = .host (.write a v) :: rest)
    (h : memWrite a v (s.setPending rest) = .next t) : step s = .next t := by
  simp [step, nextEvent, hp, handleEvent, hr, hostAccess, h]

/-- A run of one more step, from a step that answers. -/
theorem run_succ (M : Host.Core) (n : Nat) (s t : M.State) (h : M.step s = .next t) :
    M.run (n + 1) s = M.run n t := by
  simp only [Host.Core.run, h]

/-- A read of one address is the same in two states that agree on what stands behind it (R164). -/
theorem memRead_congr {s t : State} {a : Byte}
    (hf : ∀ h : a.toNat < 85, t.f[a.toNat] = s.f[a.toNat])
    (hb : ∀ (i : Nat) (h : i < 85), a.toNat = 0x80 + i → t.fbuf[i] = s.fbuf[i])
    (h0 : a = 0x60 → t.cmdlast = s.cmdlast) (h1 : a = 0x61 → statusByte t = statusByte s)
    (h2 : a = 0x62 → t.calcReg = s.calcReg) (hl : a = 0x63 ∨ a = 0x64 → t.flen = s.flen) :
    memRead t a = memRead s a := by
  unfold memRead
  split
  · next h => exact hf (Nat.lt_succ_of_le h)
  · split
    · next h => exact h0 h
    · split
      · next h => exact h1 h
      · split
        · next h => exact h2 h
        · split
          · next h => rw [hl (.inl h)]
          · split
            · next h => rw [hl (.inr h)]
            · split
              · rfl
              · split
                · next h => exact hb _ (cellIndex_lt h.2) (by omega)
                · rfl

end Sys2Proof.Machine
end

