-- ==== Sys2Proof/Tests/Slice0.lean ====
section
/-! SUPPORT. Tests against the spec's encodings and vectors (95_test_vectors.md), the well-formedness smoke, and for each statement with hypotheses a witness that meets them. Expected values are copied from the spec's tables. -/

open Sys2Proof Sys2Proof.Machine Sys2Proof.Claims

namespace Sys2Proof.Tests

-- One theorem after another: many at once each hold a thread, and the row's text is checked under a memory limit.
set_option Elab.async false

/-! ## Helpers -/

/-- The outcome is a next state and `p` holds of it. -/
def ran (o : Host.Outcome State Fault Refusal) (p : State → Bool) : Bool :=
  match o with
  | .next t    => p t
  | .fault _   => false
  | .refused _ => false

/-- A bank of 85 bytes that begins with `bs` and holds `fill` in every further cell. -/
def bank (bs : List Byte) (fill : Byte := 0x00) : Vector Byte 85 :=
  ⟨((List.range 85).map fun i => bs.getD i fill).toArray, by simp⟩

/-- The reset state with these fields, buffer and length. -/
def holding (f fbuf : Vector Byte 85) (flen : Half) : State :=
  { State.reset with f := f, fbuf := fbuf, flen := flen }

/-- The frame of V1.1: `02 01 00 01`, 80 spaces, and its SUM8 checksum. -/
def frameV11 : Vector Byte 85 := bank ([0x02, 0x01, 0x00, 0x01] ++ List.replicate 80 0x20 ++ [0x04])

/-- The frame of V1.2: V1.1 with byte 83 inverted. -/
def frameV12 : Vector Byte 85 := frameV11.set 83 0xDF

/-- The slave frame of V2.4g. -/
def frameS : Vector Byte 85 := bank [0x01, 0x05, 0xA5, 0x3C, 0xE7]

/-- The slave frame of V2.4h: one byte changed. -/
def frameSBad : Vector Byte 85 := bank [0x01, 0x05, 0xA4, 0x3C, 0xE7]

/-- The field registers of a slave message (V2.1d), with line bytes `0x41` and an unsealed CHK. -/
def slaveFields : Vector Byte 85 := bank [0x01, 0x05, 0xA5, 0x3C] 0x41

/-- The cells at the ends of the fields of a master frame: TO, OUTPUTS, the first and the last line
byte, and the checksum. -/
def corners (v : Vector Byte 85) : List Byte := [v[0], v[3], v[4], v[83], v[84]]

/-- The corners of V1.1's frame. -/
def cornersV11 : List Byte := [0x02, 0x01, 0x20, 0x20, 0x04]

/-- A state about to take the events `es`. -/
def facing (es : List Event) (s : State := State.reset) : State := { s with pending := es }

/-! ## Decoding: each command's byte written out from R97, R98 and R100 as `RSV SH OP` -/

theorem test_decode_nop : decode 0b0000_0_000#8 = .legal .nop := by decide
theorem test_decode_packM : decode 0b0000_0_001#8 = .legal .packM := by decide
theorem test_decode_sealM : decode 0b0000_0_010#8 = .legal .sealM := by decide
theorem test_decode_unpackM : decode 0b0000_0_011#8 = .legal .unpackM := by decide
theorem test_decode_verifyM : decode 0b0000_0_100#8 = .legal .verifyM := by decide
theorem test_decode_recvM : decode 0b0000_0_101#8 = .legal .recvM := by decide
theorem test_decode_rxclr : decode 0b0000_0_110#8 = .legal .rxclr := by decide
theorem test_decode_packS : decode 0b0000_1_001#8 = .legal .packS := by decide
theorem test_decode_sealS : decode 0b0000_1_010#8 = .legal .sealS := by decide
theorem test_decode_unpackS : decode 0b0000_1_011#8 = .legal .unpackS := by decide
theorem test_decode_verifyS : decode 0b0000_1_100#8 = .legal .verifyS := by decide
theorem test_decode_recvS : decode 0b0000_1_101#8 = .legal .recvS := by decide

/-- V2.6 d to j: illegal bytes, each refused for its own reason. -/
theorem test_decode_illegal_by_name :
    decode 0x07 = .illegal .reservedOp ∧ decode 0x0F = .illegal .reservedOp ∧
    decode 0x08 = .illegal .shapeOnNop ∧ decode 0x0E = .illegal .shapeOnRxclr ∧
    decode 0x10 = .illegal .reservedBits ∧ decode 0x81 = .illegal .reservedBits ∧
    decode 0xFF = .illegal .reservedBits := by decide

/-- The opcode table's rows as the host numbers them, and words that are no row. -/
theorem test_decodeTableWord :
    decodeTableWord 8 0x00 = some .nop ∧ decodeTableWord 8 0x0D = some .recvS ∧
    decodeTableWord 8 0x08 = none ∧ decodeTableWord 8 0x10 = none ∧
    decodeTableWord 16 0x0001 = none ∧ decodeTableWord 0 0x00 = none ∧
    decodeTableWord 7 0x01 = none := by decide

theorem test_decodeBytes_takes_one_byte :
    decodeBytes [0x06, 0x05] = some (.legal .rxclr, [0x05]) ∧ decodeBytes [] = none := by decide

/-! ## Well-formedness smoke: one ill-formed term for each check -/

theorem test_wf_refuses_rsv : CmdWord.wellFormed ⟨0b0001, 0, 0b001⟩ = false := by decide
theorem test_wf_refuses_op : CmdWord.wellFormed ⟨0, 1, 0b111⟩ = false := by decide
theorem test_wf_refuses_shape_on_nop : CmdWord.wellFormed ⟨0, 1, 0b000⟩ = false := by decide
theorem test_wf_refuses_shape_on_rxclr : CmdWord.wellFormed ⟨0, 1, 0b110⟩ = false := by decide
theorem test_wf_accepts_pack_s : CmdWord.wellFormed ⟨0, 1, 0b001⟩ = true := by decide
theorem test_wf_refuses_long_fill : (Stmt.fill 0xFF 2 0x20).wellFormed = false := by decide
theorem test_wf_refuses_long_ldframe :
    (Stmt.ldFrame (List.replicate 86 0x00)).wellFormed = false := by decide +kernel
theorem test_wf_accepts_bounds : (Stmt.fill 0xFF 1 0x20).wellFormed = true ∧
    (Stmt.ldFrame (List.replicate 85 0x00)).wellFormed = true := by decide +kernel

/-! ## The commands -/

/-- V2.6 a (R160's example). -/
theorem test_nop_keeps_result :
    ran (exec .nop { State.reset with result := .corruptFrame, done := true, cmdlast := 0x05 })
      (fun t => statusByte t == 0x0A && t.cmdlast == 0x00) = true := by decide +kernel

/-- V2.6 b. -/
theorem test_nop_after_reset : ran (exec .nop State.reset) (fun t => statusByte t == 0x08) = true := by
  decide +kernel

/-- V2.6 c (R161's example). -/
theorem test_rxclr : ran (exec .rxclr (holding frameV12 frameV11 0x0056))
    (fun t => t.flen == 0x0000 && statusByte t == 0x08 && corners t.fbuf == cornersV11) = true :=
  by decide +kernel

/-- V2.1 f over the fields of V1.1 (R121's example). -/
theorem test_packM : ran (exec .packM (holding frameV11 (bank [] 0x99) 0xFFFF))
    (fun t => corners t.fbuf == cornersV11 && t.flen == 0x0055 && statusByte t == 0x08) = true :=
  by decide +kernel

/-- V2.1 g: frame byte 4 of shape S is CHK, not LINE[0][0]; V2.1 d's last columns. -/
theorem test_packS :
    ran (exec .packS (holding ((bank [0, 0, 0, 0, 0x77]).set 0x54 0x11) (bank [] 0x99) 0x0000))
      (fun t => corners t.fbuf == [0x00, 0x00, 0x11, 0x99, 0x99] && t.flen == 0x0005 &&
        statusByte t == 0x0C) = true := by decide +kernel

/-- V2.2 b: UNPACK does not look at the checksum. -/
theorem test_unpackM_ignores_checksum : ran (exec .unpackM (holding (bank []) frameV12 85))
    (fun t => corners t.f == [0x02, 0x01, 0x20, 0xDF, 0x04] && statusByte t == 0x08) = true :=
  by decide +kernel

/-- V2.2 d. -/
theorem test_unpackM_long : ran (exec .unpackM (holding (bank []) frameV11 86))
    (fun t => corners t.f == [0, 0, 0, 0, 0] && statusByte t == 0x09) = true := by decide +kernel

/-- V2.2 g: LINE stays, CHK comes from frame byte 4. -/
theorem test_unpackS : ran (exec .unpackS (holding (bank [] 0x41) frameS 5))
    (fun t => corners t.f == [0x01, 0x3C, 0x41, 0x41, 0xE7] && statusByte t == 0x0C) = true := by
  decide +kernel

/-- V2.2 i: a master frame given to UNPACK.S. -/
theorem test_unpackS_wrong_shape : ran (exec .unpackS (holding (bank []) frameV11 85))
    (fun t => corners t.f == [0, 0, 0, 0, 0] && statusByte t == 0x0D) = true := by decide +kernel

/-- V2.3 a (R144's example): the old CHK is not read. -/
theorem test_sealM : ran (exec .sealM (holding (frameV11.set 0x54 0x99) (bank []) 0))
    (fun t => corners t.f == cornersV11 && t.calcReg == 0x04 && statusByte t == 0x08) = true :=
  by decide +kernel

/-- V2.3 e (R145's example): LINE is not read. -/
theorem test_sealS : ran (exec .sealS (holding slaveFields (bank []) 0))
    (fun t => corners t.f == [0x01, 0x3C, 0x41, 0x41, 0xE7] && t.calcReg == 0xE7 && statusByte t == 0x0C) = true := by
  decide +kernel

/-- V2.3 e under XOR8 and CRC8. -/
theorem test_sealS_other_checksums :
    ran (exec .sealS { holding slaveFields (bank []) 0 with cfg := ⟨.xor8, .zero⟩ })
      (fun t => chkReg t == 0x9D) = true ∧
    ran (exec .sealS { holding slaveFields (bank []) 0 with cfg := ⟨.crc8, .zero⟩ })
      (fun t => chkReg t == 0x3B) = true := by decide +kernel

/-- V2.4 b (V1.2). -/
theorem test_verifyM_corrupt : ran (exec .verifyM (holding (bank [0x77]) frameV12 85))
    (fun t => t.calcReg == 0xC3 && statusByte t == 0x0A && corners t.f == [0x77, 0, 0, 0, 0]) = true :=
  by decide +kernel

/-- V2.4 e: two changes that cancel under SUM8. -/
theorem test_verifyM_cancelling :
    ran (exec .verifyM (holding (bank []) ((frameV11.set 4 0x21).set 5 0x1F) 85))
      (fun t => t.calcReg == 0x04 && statusByte t == 0x08) = true := by decide +kernel

/-- V2.4 h. -/
theorem test_verifyS_corrupt : ran (exec .verifyS (holding (bank []) frameSBad 5))
    (fun t => t.calcReg == 0xE6 && statusByte t == 0x0E) = true := by decide +kernel

/-- V2.4 j. -/
theorem test_verifyS_long : ran (exec .verifyS (holding (bank []) frameS 6))
    (fun t => t.calcReg == 0x00 && statusByte t == 0x0D) = true := by decide +kernel

/-- V2.5 a. -/
theorem test_recvM : ran (exec .recvM (holding (bank []) frameV11 85))
    (fun t => corners t.f == cornersV11 && t.calcReg == 0x04 && statusByte t == 0x08) = true :=
  by decide +kernel

/-- V2.5 b. -/
theorem test_recvM_corrupt : ran (exec .recvM (holding (bank [0x77]) frameV12 85))
    (fun t => corners t.f == [0x77, 0, 0, 0, 0] && t.calcReg == 0xC3 && statusByte t == 0x0A) = true :=
  by decide +kernel

/-- V2.5 d. -/
theorem test_recvS : ran (exec .recvS (holding (bank [] 0x41) frameS 5))
    (fun t => corners t.f == [0x01, 0x3C, 0x41, 0x41, 0xE7] && t.calcReg == 0xE7 &&
      statusByte t == 0x0C) = true := by decide +kernel

/-- V2.5 e. -/
theorem test_recvS_corrupt : ran (exec .recvS (holding (bank [] 0x41) frameSBad 5))
    (fun t => corners t.f == [0x41, 0x41, 0x41, 0x41, 0x41] && t.calcReg == 0xE6 && statusByte t == 0x0E) = true := by decide +kernel

/-- V2.6 h and g (R162's examples). -/
theorem test_illegal : ran (cmdWrite 0x10 State.reset) (fun t => statusByte t == 0x0B && t.cmdlast == 0x10) = true ∧
    ran (cmdWrite 0x0F State.reset) (fun t => statusByte t == 0x0F) = true := by decide +kernel

/-! ## Host accesses, RST, steps -/

/-- V2.7 a, d, e, h, o, p. -/
theorem test_reads :
    memRead State.reset 0x61 = 0x00 ∧ memRead (holding frameV11 frameV11 85) 0x70 = 0x00 ∧
    memRead (holding frameV11 frameV11 85) 0x65 = 0x00 ∧ memRead (holding frameV11 frameV11 85) 0xD5 = 0x00 ∧
    memRead (holding frameV11 frameV11 0x0155) 0x63 = 0x55 ∧
    memRead (holding frameV11 frameV11 0x0155) 0x64 = 0x01 ∧
    memRead { State.reset with cmdlast := 0x10 } 0x60 = 0x10 := by decide +kernel

/-- The ends of the two banks in the register map (R61). -/
theorem test_bank_ends :
    memRead (holding frameV11 frameS 5) 0x54 = 0x04 ∧ memRead (holding frameV11 frameS 5) 0x55 = 0x00 ∧
    memRead (holding frameS frameV11 85) 0x80 = 0x02 ∧ memRead (holding frameS frameV11 85) 0xD4 = 0x04 := by
  decide +kernel

/-- V2.7 b, c, d. -/
theorem test_ignored_writes :
    ran (memWrite 0x61 0xFF State.reset) (fun t => t == State.reset) = true ∧
    ran (memWrite 0x62 0x99 { State.reset with calcReg := 0x04 }) (fun t => memRead t 0x62 == 0x04) = true ∧
    ran (memWrite 0x70 0x55 State.reset) (fun t => t == State.reset) = true := by decide +kernel

/-- V2.7 f, g. -/
theorem test_flen_writes :
    ran (memWrite 0x63 0x55 State.reset) (fun t => t.flen == 0x0055) = true ∧
    ran (memWrite 0x64 0x01 (holding (bank []) (bank []) 0x0055)) (fun t => t.flen == 0x0155) = true := by
  decide +kernel

/-- V2.7 j, k, l: the last cell, one beyond it, and saturation. -/
theorem test_rxpush :
    ran (memWrite 0x65 0xAA (holding (bank []) (bank []) 84))
      (fun t => corners t.fbuf == [0, 0, 0, 0, 0xAA] && t.flen == 85) = true ∧
    ran (memWrite 0x65 0xBB (holding (bank []) frameV11 85)) (fun t => corners t.fbuf == cornersV11 && t.flen == 86) = true ∧
    ran (memWrite 0x65 0x00 (holding (bank []) frameV11 0xFFFF))
      (fun t => corners t.fbuf == cornersV11 && t.flen == 0xFFFF) = true := by decide +kernel

/-- R201: RST resets, and a write while it is asserted is lost. -/
theorem test_rst :
    ran (step (facing [.rst true] (holding frameV11 frameV11 85)))
      (fun t => corners t.f == [0, 0, 0, 0, 0] && corners t.fbuf == [0, 0, 0, 0, 0] && t.flen == 0x0000 && t.rst) = true ∧
    ran (step (facing [.host (.write 0x00 0x77)] { State.reset with rst := true }))
      (fun t => corners t.f == [0, 0, 0, 0, 0] && t.pending == []) = true := by decide +kernel

/-- A read step answers the register's value (R164). -/
theorem test_read_step : ran (step (facing [.host (.read 0x54)] (holding frameV11 (bank []) 0)))
    (fun t => t.readLog == [0x04]) = true := by decide +kernel

/-- The host's probe: the placed word runs in the very next step, also with RST asserted before. -/
theorem test_withFetchWord :
    ran (step (State.reset.withFetchWord 8 0x01)) (fun t => t.cmdlast == 0x01 && t.flen == 85) = true ∧
    ran (step ({ State.reset with rst := true }.withFetchWord 8 0x06)) (fun t => t.cmdlast == 0x06) = true := by
  decide +kernel

/-- R104: two expansions. -/
theorem test_expansions :
    expand (.setLen 0xFFFE) = [.write 0x63 0xFE, .write 0x64 0xFF] ∧
    expand (.fill 0x04 2 0x20) = [.write 0x04 0x20, .write 0x05 0x20] ∧
    expand (.command .recvS) = [.write 0x60 0x0D] := by decide

/-! ## Witnesses: for each statement with hypotheses, data that meets all of them -/

theorem witness_EncodeIsTheOnlyByteOfACommand : decode 0x0D = .legal .recvS := by decide

/-- The boundary bytes of R101's four kinds, and their legal neighbours. -/
theorem witness_IllegalByteOnlyRecordsItself :
    illegalByte 0x07 = true ∧ illegalByte 0x08 = true ∧ illegalByte 0x0E = true ∧ illegalByte 0x0F = true ∧
    illegalByte 0x10 = true ∧ illegalByte 0xFF = true ∧ illegalByte 0x06 = false ∧ illegalByte 0x09 = false ∧
    illegalByte 0x0D = false := by decide

theorem witness_StepRunsTheDecodedCommand :
    (facing [.host (.write 0x60 0x05)]).rst = false ∧
    (facing [.host (.write 0x60 0x05)]).pending = .host (.write 0x60 0x05) :: [] ∧
    decode 0x05 = .legal .recvM ∧ decode 0x10 = .illegal .reservedBits := by decide

theorem witness_StepPerformsTheHostAccess :
    (facing [.host (.read 0xD4)]).rst = false ∧ (facing [.host (.read 0xD4)]).pending = .host (.read 0xD4) :: [] ∧
    (facing [.host (.write 0x54 0x01)]).pending = .host (.write 0x54 0x01) :: [] := by decide

theorem witness_IdleStepHoldsState : State.reset.pending = [] := by decide

theorem witness_CmdWriteRunsPrologueAndBody :
    decode 0x00 = .legal .nop ∧ decode 0x0D = .legal .recvS ∧ decode 0x08 = .illegal .shapeOnNop := by decide

theorem witness_ResetValuesOfEveryElement : State.reset.cfg.resetValues = .zero := by decide

theorem witness_RstResetsAndShutsThePort :
    (facing [.rst true]).pending = .rst true :: [] ∧ (facing [.rst false]).pending = .rst false :: [] ∧
    (facing [.rst true]).cfg.resetValues = .zero ∧
    (facing [.host (.write 0x60 0x01)] { State.reset with rst := true }).rst = true ∧
    (facing [.host (.write 0x60 0x01)] { State.reset with rst := true }).pending = .host (.write 0x60 0x01) :: [] ∧
    (facing [.host (.read 0x61)] { State.reset with rst := true }).pending = .host (.read 0x61) :: [] := by
  decide

theorem witness_OnlyRstClearsDone :
    ∃ t, step (facing [.rst true] { State.reset with done := true }) = .next t ∧
      (facing [.rst true] { State.reset with done := true }).done = true ∧ t.done = false :=
  ⟨_, rfl, by decide, by decide⟩

/-- Both clauses over FLEN of UNPACK.M, VERIFY.M and RECV.M, on each side of 85, and both over the
checksum. -/
theorem witness_shape_M_lengths_and_checksums :
    (holding (bank []) frameV11 85).flen = 85 ∧ (holding (bank []) frameV11 84).flen ≠ 85 ∧
    (holding (bank []) frameV11 86).flen ≠ 85 ∧
    csum State.reset.cfg.csumAlg (frameV11.toList.take 84) = frameV11[84] ∧
    csum State.reset.cfg.csumAlg (frameV12.toList.take 84) ≠ frameV12[84] := by decide +kernel

/-- The same for shape S. -/
theorem witness_shape_S_lengths_and_checksums :
    (holding (bank []) frameS 5).flen = 5 ∧ (holding (bank []) frameS 4).flen ≠ 5 ∧
    (holding (bank []) frameS 6).flen ≠ 5 ∧
    csum State.reset.cfg.csumAlg [frameS[0], frameS[1], frameS[2], frameS[3]] = frameS[4] ∧
    csum State.reset.cfg.csumAlg [frameSBad[0], frameSBad[1], frameSBad[2], frameSBad[3]] ≠ frameSBad[4] := by
  decide +kernel

/-- A successful UNPACK; two PACKs that leave one frame; a byte sequence of the shape's length. -/
theorem witness_PackAfterUnpackRestoresFrame :
    (∃ t, exec (.unpack .S) (holding (bank []) frameS 5) = .next t ∧ t.result = .ok) ∧
    (∃ t, exec (.unpack .M) (holding (bank []) frameV12 85) = .next t ∧ t.result = .ok) ∧
    (∃ t t', exec (.pack .S) (holding frameS (bank []) 0) = .next t ∧
      exec (.pack .S) (holding frameS (bank []) 9) = .next t' ∧ frameBytes .S t = frameBytes .S t') ∧
    (frameS.toList.take 5).length = frameSize .S ∧ frameV11.toList.length = frameSize .M := by
  refine ⟨⟨_, rfl, ?_⟩, ⟨_, rfl, ?_⟩, ⟨_, _, rfl, rfl, ?_⟩, ?_, ?_⟩ <;> decide +kernel

/-- A valid frame of each shape, and the changes at the ends of the frame; for SUM8 also two changes
that cancel (V2.4 e). -/
theorem witness_SingleByteCorruptionIsCaught :
    DetectsSingleByte (csum State.reset.cfg.csumAlg) ∧
    (∃ t, exec (.verify .M) (holding (bank []) frameV11 85) = .next t ∧ t.result = .ok ∧
      83 < frameSize .M ∧ (0xDF : Byte) ≠ t.fbuf[83] ∧ 84 < frameSize .M ∧ (0x05 : Byte) ≠ t.fbuf[84] ∧
      4 < frameFields .M ∧ 5 < frameFields .M ∧ (0x21 : Byte) + 0x1F = t.fbuf[4] + t.fbuf[5]) ∧
    (∃ t, exec (.verify .S) (holding (bank []) frameS 5) = .next t ∧ t.result = .ok ∧
      0 < frameSize .S ∧ (0x02 : Byte) ≠ t.fbuf[0] ∧ 4 < frameSize .S ∧ (0xE6 : Byte) ≠ t.fbuf[4]) ∧
    (holding (bank []) frameV11 85).cfg.csumAlg = .sum8 := by
  refine ⟨sum8_detectsSingleByte, ⟨_, rfl, ?_⟩, ⟨_, rfl, ?_⟩, ?_⟩ <;> decide +kernel

/-- Two states with one slave frame and different fields and further cells. -/
theorem witness_VerdictDependsOnTheFrameAlone :
    (holding (bank []) frameS 5).cfg.csumAlg = (holding (bank [0x77]) (frameS.set 5 0x99) 5).cfg.csumAlg ∧
    (holding (bank []) frameS 5).flen = (holding (bank [0x77]) (frameS.set 5 0x99) 5).flen ∧
    frameBytes .S (holding (bank []) frameS 5) = frameBytes .S (holding (bank [0x77]) (frameS.set 5 0x99) 5) ∧
    ran (exec (.recv .S) (holding (bank []) frameS 5)) (fun t => t.result == .ok) = true :=
  by decide +kernel

theorem witness_StaleChecksumIsRejected :
    DetectsSingleByte (csum State.reset.cfg.csumAlg) ∧
    ∃ t, exec (.seal .S) (holding slaveFields (bank []) 0) = .next t ∧ 3 < frameFields .S ∧
      (0x3D : Byte) ≠ t.f[3] := by
  refine ⟨sum8_detectsSingleByte, _, rfl, ?_⟩; decide +kernel

theorem witness_Crc8IsLinearAndSelfChecking :
    ([0x31, 0x32] : List Byte).length = ([0xFF, 0x00] : List Byte).length := by decide

/-- The ends of each reserved range (R62). -/
theorem witness_reserved_addresses :
    Reserved 0x55 ∧ Reserved 0x5F ∧ Reserved 0x66 ∧ Reserved 0x7F ∧ Reserved 0xD5 ∧ Reserved 0xFF ∧
    ¬ Reserved 0x54 ∧ ¬ Reserved 0x60 ∧ ¬ Reserved 0x65 ∧ ¬ Reserved 0x80 ∧ ¬ Reserved 0xD4 := by
  unfold Reserved; decide

/-- The ends of each read-write range (R61). -/
theorem witness_WritesReadBackAndTouchNothingElse :
    ReadWrite 0x00 ∧ ReadWrite 0x54 ∧ ReadWrite 0x63 ∧ ReadWrite 0x64 ∧ ReadWrite 0x80 ∧ ReadWrite 0xD4 ∧
    ¬ ReadWrite 0x55 ∧ ¬ ReadWrite 0x60 ∧ ¬ ReadWrite 0x65 ∧ ¬ ReadWrite 0x7F ∧ ¬ ReadWrite 0xD5 := by
  unfold ReadWrite; decide

theorem witness_RxpushAppendsOrCounts : 85 ≤ (holding (bank []) frameV11 85).flen.toNat ∧
    ¬ 85 ≤ (holding (bank []) frameV11 84).flen.toNat ∧ ChecksLength .S .recvS := by
  unfold ChecksLength; decide

/-- A PACK of each shape, and the addresses just outside its cells. -/
theorem witness_FrameOfPack :
    (∃ t, exec (.pack .S) (holding frameS (bank []) 0) = .next t) ∧
    (∃ t, exec (.pack .M) (holding frameV11 (bank []) 0) = .next t) ∧
    ¬ (0x80 ≤ (0x85 : Byte).toNat ∧ (0x85 : Byte).toNat < 0x80 + frameSize .S) ∧
    ¬ (0x80 ≤ (0xD5 : Byte).toNat ∧ (0xD5 : Byte).toNat < 0x80 + frameSize .M) ∧
    (0x85 : Byte) ∉ ([0x60, 0x61, 0x63, 0x64] : List Byte) ∧
    (0x54 : Byte) ∉ ([0x60, 0x61, 0x63, 0x64] : List Byte) := by
  refine ⟨⟨_, rfl⟩, ⟨_, rfl⟩, ?_⟩; decide

/-- UNPACK, RECV and SEAL on valid frames, and the first address each statement says is unchanged. -/
theorem witness_FrameOfFieldWriters :
    (∃ t, exec (.unpack .S) (holding (bank []) frameS 5) = .next t) ∧
    (∃ t, exec (.recv .M) (holding (bank []) frameV11 85) = .next t) ∧
    (∃ t, exec (.seal .M) (holding frameV11 (bank []) 0) = .next t) ∧
    frameFields .S ≤ (0x04 : Byte).toNat ∧ frameFields .M ≤ (0x55 : Byte).toNat ∧
    (0x04 : Byte) ∉ ([0x54, 0x60, 0x61, 0x62] : List Byte) ∧ (0x55 : Byte) ∉ ([0x54, 0x60, 0x61, 0x62] : List Byte) := by
  refine ⟨⟨_, rfl⟩, ⟨_, rfl⟩, ⟨_, rfl⟩, ?_⟩; decide

theorem witness_FrameOfCheckersAndControl :
    (∃ t, exec (.verify .M) (holding (bank []) frameV12 85) = .next t) ∧
    (∃ t, exec .rxclr (holding (bank []) frameV11 85) = .next t) ∧ (∃ t, exec .nop State.reset = .next t) ∧
    (0x54 : Byte) ∉ ([0x60, 0x61, 0x62] : List Byte) ∧ (0xD4 : Byte) ∉ ([0x60, 0x61, 0x63, 0x64] : List Byte) ∧
    (0x62 : Byte) ∉ ([0x60, 0x61] : List Byte) := by
  refine ⟨⟨_, rfl⟩, ⟨_, rfl⟩, ⟨_, rfl⟩, ?_⟩; decide

theorem witness_FramingErrorExactlyOnWrongLength :
    (∃ t, cmdWrite 0x03 (holding (bank []) frameV11 84) = .next t ∧ t.result = .framingError) ∧
    (∃ u, cmdWrite 0x00 State.reset = .next u) ∧ (0x03 : Byte) ≠ 0x00 :=
  ⟨⟨_, rfl, by decide⟩, ⟨_, rfl⟩, by decide⟩

theorem witness_CorruptFrameExactlyOnWrongChecksum :
    (∃ t, cmdWrite 0x0C (holding (bank []) frameSBad 5) = .next t ∧ t.result = .corruptFrame) ∧
    (∃ t, cmdWrite 0x0D (holding (bank []) frameSBad 5) = .next t ∧ t.result = .corruptFrame) ∧
    decode 0x0C = .legal (.verify .S) ∧ decode 0x0D = .legal (.recv .S) := by
  refine ⟨⟨_, rfl, ?_⟩, ⟨_, rfl, ?_⟩, ?_⟩ <;> decide +kernel

/-- Each of the four outcomes has its bytes and states: an illegal byte, a wrong length, a wrong
checksum, and a command all of whose checks pass. -/
theorem witness_FirstFailingCheckDecides :
    illegalByte 0x07 = true ∧
    (decode 0x0B = .legal .unpackS ∧ ChecksLength .S .unpackS ∧
      (holding (bank []) frameS 6).flen.toNat ≠ frameSize .S) ∧
    (decode 0x0D = .legal .recvS ∧ ChecksCsum .S .recvS ∧ (holding (bank []) frameSBad 5).flen.toNat = frameSize .S ∧
      rxCsum .S (holding (bank []) frameSBad 5) ≠ rxCheck .S (holding (bank []) frameSBad 5)) ∧
    (decode 0x0D = .legal .recvS ∧
      (∀ sh, ChecksLength sh .recvS → (holding (bank []) frameS 5).flen.toNat = frameSize sh) ∧
      ∀ sh, ChecksCsum sh .recvS → rxCsum sh (holding (bank []) frameS 5) = rxCheck sh (holding (bank []) frameS 5)) := by
  unfold ChecksLength ChecksCsum
  refine ⟨?_, ?_, ?_, ?_, ?_, ?_⟩
  on_goal 5 => intro sh; cases sh
  on_goal 7 => intro sh; cases sh
  all_goals decide +kernel

theorem witness_ValuesAreNeverErrors :
    (holding (bank []) frameS 5).flen = (holding (bank [0x77]) (frameS.set 5 0x99) 5).flen ∧
    frameBytes .S (holding (bank []) frameS 5) = frameBytes .S (holding (bank [0x77]) (frameS.set 5 0x99) 5) ∧
    (holding (bank []) frameS 5).cfg.csumAlg = (holding (bank [0x77]) (frameS.set 5 0x99) 5).cfg.csumAlg ∧
    85 ≤ (holding (bank []) frameV11 85).flen.toNat ∧ ChecksLength .M .recvM := by
  unfold ChecksLength; decide +kernel

theorem witness_StatusSteersNothing :
    (∃ t, cmdWrite 0x0C (holding (bank []) frameS 5) = .next t) ∧ (0x0C : Byte) ≠ 0x00 :=
  ⟨⟨_, rfl⟩, by decide⟩

/-- Two states with one slave message and different line bytes. -/
theorem witness_ShapeSNeverTouchesLine :
    Instr.recvS ∈ [Instr.packS, Instr.sealS, Instr.unpackS, Instr.verifyS, Instr.recvS] ∧
    SameFields .S (holding slaveFields frameS 5) (holding (slaveFields.set 4 0x99) frameS 5) ∧
    (holding (slaveFields.set 4 0x99) frameS 5).setF slaveFields = holding slaveFields frameS 5 ∧
    ∃ t, exec .recvS (holding slaveFields frameS 5) = .next t := by
  unfold SameFields
  refine ⟨?_, ?_, rfl, _, rfl⟩ <;> decide +kernel

/-- A SEAL and a RECV by steps that change CALC, and a reset that does. -/
theorem witness_CalcHoldsTheLastComputedChecksum :
    (∃ t, exec (.seal .S) (holding slaveFields (bank []) 0) = .next t) ∧
    (ChecksCsum .S .recvS ∧ ∃ t, exec .recvS (holding (bank []) frameS 5) = .next t) ∧
    (∃ t, step (facing [.host (.write 0x60 0x0D)] (holding (bank []) frameS 5)) = .next t ∧ t.calcReg ≠ 0x00) ∧
    (∃ t, step (facing [.rst true] { State.reset with calcReg := 0x04 }) = .next t ∧ t.calcReg ≠ 0x04) := by
  unfold ChecksCsum
  refine ⟨⟨_, rfl⟩, ⟨?_, _, rfl⟩, ⟨_, rfl, ?_⟩, ⟨_, rfl, ?_⟩⟩ <;> decide +kernel

theorem witness_StatusWrittenOnlyByCommands :
    ∃ t, step (facing [.host (.write 0x60 0x06)]) = .next t ∧
      ¬ StatusUnchanged (facing [.host (.write 0x60 0x06)]) t := by
  refine ⟨_, rfl, ?_⟩; unfold StatusUnchanged; decide

theorem witness_CmdlastHoldsTheLastCommandByte :
    ∃ t, step (facing [.host (.write 0x60 0x10)]) = .next t ∧
      t.cmdlast ≠ (facing [.host (.write 0x60 0x10)]).cmdlast :=
  ⟨_, rfl, by decide⟩

theorem witness_ParametersNeverChange : ∃ t, step (facing [.rst true]) = .next t := ⟨_, rfl⟩

/-- A consistent state that has run a command with an error, and the step to its next command. -/
theorem witness_StepKeepsConsistency :
    consistent { State.reset with cmdlast := 0x0D, result := .corruptFrame, shape := .S, done := true,
                                  flen := 5, calcReg := 0xE6, pending := [.host (.write 0x60 0x06)] } = true ∧
    (∃ t, step (facing [.host (.write 0x60 0x06)]) = .next t) ∧
    consistent { State.reset with cmdlast := 0x01, result := .corruptFrame, done := true } = false := by
  refine ⟨?_, ⟨_, rfl⟩, ?_⟩ <;> decide

theorem witness_StatementExpansions : (Stmt.fill 0xFF 1 0x20).wellFormed = true ∧ 0 < 1 := by decide

/-- Two pushes from the last cell on, then a read. -/
theorem witness_PushedSequenceLandsAtFlen :
    let bs : List Byte := [0xAA, 0xBB]
    let rest : List Event := [.host (.read 0x61)]
    let s := facing (bs.map (fun v => Event.host (Access.write 0x65 v)) ++ rest) (holding (bank []) (bank []) 84)
    s.rst = false ∧ s.pending = bs.map (fun v => Event.host (Access.write 0x65 v)) ++ rest :=
  ⟨rfl, rfl⟩

/-- A sequence for each of the three outcomes: one byte short, a wrong checksum, a valid frame. -/
theorem witness_ReceiveAcceptsExactlyTheValidFrames :
    (facing (hostEvents [.ldFrame [0x01, 0x05, 0xA5, 0x3C, 0xE7], .command (.recv .S)])).rst = false ∧
    (facing (hostEvents [.ldFrame [0x01, 0x05, 0xA5, 0x3C, 0xE7], .command (.recv .S)])).pending =
      hostEvents [.ldFrame [0x01, 0x05, 0xA5, 0x3C, 0xE7], .command (.recv .S)] ∧
    ([0x01, 0x05, 0xA5, 0x3C] : List Byte).length ≠ frameSize .S ∧
    ([0x01, 0x05, 0xA5, 0x3C, 0xE7] : List Byte).length = frameSize .S ∧
    ([0x01, 0x05, 0xA4, 0x3C, 0xE7] : List Byte)[frameFields .S]? ≠ some (csum .sum8 ([0x01, 0x05, 0xA4, 0x3C, 0xE7].take (frameFields .S))) ∧
    ([0x01, 0x05, 0xA5, 0x3C, 0xE7] : List Byte)[frameFields .S]? = some (csum .sum8 ([0x01, 0x05, 0xA5, 0x3C, 0xE7].take (frameFields .S))) := by
  decide

theorem witness_TransferDeliversTheFields :
    ∃ t u, exec (.seal .S) (holding slaveFields (bank []) 0) = .next t ∧ exec (.pack .S) t = .next u ∧
      (facing (hostEvents [.ldFrame (frameBytes .S u), .command (.recv .S)])).rst = false ∧
      (facing (hostEvents [.ldFrame (frameBytes .S u), .command (.recv .S)])).cfg.csumAlg =
        (holding slaveFields (bank []) 0).cfg.csumAlg ∧
      (facing (hostEvents [.ldFrame (frameBytes .S u), .command (.recv .S)])).pending =
        hostEvents [.ldFrame (frameBytes .S u), .command (.recv .S)] :=
  ⟨_, _, rfl, rfl, rfl, rfl, rfl⟩

/-- Two sequences of length 4, and two of length 84, that differ at one end only. -/
theorem witness_EveryChecksumDetectsSingleBytes :
    DifferOnlyAt 3 [0x01, 0x05, 0xA5, 0x3C] [0x01, 0x05, 0xA5, 0x3D] ∧
    DifferOnlyAt 0 (0x00 :: List.replicate 83 0x20) (0x01 :: List.replicate 83 0x20) ∧
    ([0x01, 0x05, 0xA5, 0x3C] : List Byte).length = 4 ∧
    ((0x00 : Byte) :: List.replicate 83 0x20).length = 84 := by
  refine ⟨⟨rfl, by decide, by decide, ?_⟩, ⟨by simp, by simp, by simp, ?_⟩, rfl, by simp⟩
  · rintro (_ | _ | _ | _ | q) h <;> simp_all
  · rintro (_ | q) h <;> simp_all

end Sys2Proof.Tests
end

section
/-! PROOFS. The machine's parameters stay: reset and the accesses during it leave them, and so does every step. -/

namespace Sys2Proof.Machine

@[simp] theorem assertRst_cfg (s : State) : (assertRst s).cfg = s.cfg := rfl

@[simp] theorem releaseRst_cfg (s : State) : (releaseRst s).cfg = s.cfg := rfl

@[simp] theorem answerFree_cfg (s : State) : (answerFree s).cfg = s.cfg := rfl

@[simp] theorem accessInReset_cfg (a : Access) (s : State) : (accessInReset a s).cfg = s.cfg := by
  cases a with
  | read addr => exact answerFree_cfg s
  | write addr v => rfl

/-- A host write that answers leaves the parameters, whatever command it may run. -/
theorem memWrite_cfg {a v : Byte} {s t : State} (h : memWrite a v s = .next t) : t.cfg = s.cfg := by
  obtain ⟨u, hu, -, hcfg, -⟩ := memWrite_answers a v s
  obtain rfl : u = t := by simpa [hu] using h
  exact hcfg

/-- Settles O53, by the cases of a step: each is an operation that leaves the parameters. -/
theorem parametersNeverChange : Obligations.ParametersNeverChange := by
  intro s t h
  obtain ⟨-, rfl⟩ | ⟨rest, -, rfl⟩ | ⟨rest, -, rfl⟩ | ⟨rest, a, -, -, rfl⟩ | ⟨rest, a, -, -, rfl⟩ |
    ⟨rest, a, v, -, -, hw⟩ := step_cases h
  · rfl
  · simp
  · simp
  · simp
  · simp
  · simpa using memWrite_cfg hw

end Sys2Proof.Machine
end

section
/-! PROOFS. Facts for every family: the decoder against the encoder, the prologue and the port after a command, the field registers after each command body, RXPUSH, and reset. -/

namespace Sys2Proof.Machine

open Sys2Proof.Claims

/-! ## Decoder and encoder -/

@[simp] theorem decode_encode (i : Instr) : decode (encode i) = .legal i := by cases i <;> rfl

/-- The fields that decode to a command are the command's own (R98). -/
theorem cmdWord_of_decode_legal {w : CmdWord} {i : Instr} (h : w.decode = .legal i) :
    w = i.cmdWord := by
  obtain ⟨rsv, sh, op⟩ := w
  by_cases hr : rsv = 0#4
  · subst hr
    revert sh op
    cases i <;> decide
  · simp [CmdWord.decode, hr] at h

/-- Putting the fields of a byte together again gives the byte (R97). -/
theorem toByte_ofByte (c : Byte) : (CmdWord.ofByte c).toByte = c := by
  revert c
  decide

/-- No byte but its own decodes to a command (R100, R102). -/
theorem eq_encode_of_decode {c : Byte} {i : Instr} (h : decode c = .legal i) : c = encode i := by
  rw [encode, ← cmdWord_of_decode_legal h, toByte_ofByte]

/-! ## What every command and every CMD write does -/

/-- R163's prologue, from the command that ran. -/
theorem exec_prologue {i : Instr} {s t : State} (h : exec i s = .next t) :
    t.cmdlast = encode i ∧ t.done = true ∧
      t.shape = (if i = .nop then s.shape else shapeOfByte (encode i)) := by
  obtain ⟨u, hu, hcmd, hdone, hshape, -⟩ := exec_answers i s
  obtain rfl : u = t := by simpa [hu] using h
  exact ⟨hcmd, hdone, hshape⟩

theorem exec_portUnchanged {i : Instr} {s t : State} (h : exec i s = .next t) :
    PortUnchanged s t := by
  obtain ⟨u, hu, -, -, -, hport⟩ := exec_answers i s
  obtain rfl : u = t := by simpa [hu] using h
  exact hport

theorem memWrite_portUnchanged {a v : Byte} {s t : State} (h : memWrite a v s = .next t) :
    PortUnchanged s t := by
  obtain ⟨u, hu, hport⟩ := memWrite_answers a v s
  obtain rfl : u = t := by simpa [hu] using h
  exact hport

/-- A CMD write records its byte and sets DONE, whether the byte is legal or not (R163). -/
theorem cmdWrite_records (c : Byte) (s : State) :
    ∃ t, cmdWrite c s = .next t ∧ t.cmdlast = c ∧ t.done = true := by
  cases hd : decode c with
  | legal i =>
    obtain ⟨t, ht, -⟩ := exec_answers i s
    obtain ⟨hcmd, hdone, -⟩ := exec_prologue ht
    exact ⟨t, by rw [cmdWrite_legal hd, ht], by rw [hcmd, ← eq_encode_of_decode hd], hdone⟩
  | illegal why => exact ⟨_, cmdWrite_illegal hd s, by simp⟩

theorem cmdWrite_cmdlast {c : Byte} {s t : State} (h : cmdWrite c s = .next t) :
    t.cmdlast = c ∧ t.done = true := by
  obtain ⟨u, hu, hrec⟩ := cmdWrite_records c s
  obtain rfl : u = t := by simpa [hu] using h
  exact hrec

/-! ## The checking bodies, whatever their outcome -/

/-- What holds of the command's rest and of the FRAMING_ERROR holds after the length check (R182). -/
theorem checkLength_induction {P : State → Prop} {sh : Shape} {rest : State → State} {s : State}
    (hrest : s.flen.toNat = frameSize sh → P (rest s)) (herr : P (raise .framingError s)) :
    P (checkLength sh rest s) := by
  by_cases h : s.flen.toNat = frameSize sh
  · rw [checkLength_of_eq _ h]; exact hrest h
  · rw [checkLength_of_ne _ h]; exact herr

/-- What holds of the command's rest and of the CORRUPT_FRAME holds after the checksum check (R183). -/
theorem checkCsum_induction {P : State → Prop} {sh : Shape} {rest : State → State} {s : State}
    (hrest : P (rest (s.setCalc (rxCsum sh s))))
    (herr : P (raise .corruptFrame (s.setCalc (rxCsum sh s)))) : P (checkCsum sh rest s) := by
  by_cases h : rxCsum sh s = rxCheck sh s
  · rw [checkCsum_of_eq _ h]; exact hrest
  · rw [checkCsum_of_ne _ h]; exact herr

section bodies
variable (sh : Shape) (s : State)

/-- Loading leaves every field register that is not of the shape (R123, R124). -/
theorem loadFields_f_beyond (i : Nat) (h : i < 85) (hi : frameFields sh ≤ i) (hc : i ≠ 84) :
    (loadFields sh s).f[i] = s.f[i] := by
  rw [loadFields_cell, if_neg hc, if_neg (by omega)]

@[simp] theorem unpackBody_fbuf : (unpackBody sh s).fbuf = s.fbuf :=
  checkLength_induction (P := fun t => t.fbuf = s.fbuf) (by simp) (by simp)
@[simp] theorem unpackBody_flen : (unpackBody sh s).flen = s.flen :=
  checkLength_induction (P := fun t => t.flen = s.flen) (by simp) (by simp)
@[simp] theorem unpackBody_calcReg : (unpackBody sh s).calcReg = s.calcReg :=
  checkLength_induction (P := fun t => t.calcReg = s.calcReg) (by simp) (by simp)
theorem unpackBody_f_beyond (i : Nat) (h : i < 85) (hi : frameFields sh ≤ i) (hc : i ≠ 84) :
    (unpackBody sh s).f[i] = s.f[i] :=
  checkLength_induction (P := fun t => t.f[i] = s.f[i])
    (fun _ => loadFields_f_beyond sh s i h hi hc) (by simp)

@[simp] theorem verifyBody_f : (verifyBody sh s).f = s.f :=
  checkLength_induction (P := fun t => t.f = s.f)
    (fun _ => checkCsum_induction (P := fun t => t.f = s.f) (by simp) (by simp)) (by simp)
@[simp] theorem verifyBody_fbuf : (verifyBody sh s).fbuf = s.fbuf :=
  checkLength_induction (P := fun t => t.fbuf = s.fbuf)
    (fun _ => checkCsum_induction (P := fun t => t.fbuf = s.fbuf) (by simp) (by simp)) (by simp)
@[simp] theorem verifyBody_flen : (verifyBody sh s).flen = s.flen :=
  checkLength_induction (P := fun t => t.flen = s.flen)
    (fun _ => checkCsum_induction (P := fun t => t.flen = s.flen) (by simp) (by simp)) (by simp)

@[simp] theorem recvBody_fbuf : (recvBody sh s).fbuf = s.fbuf :=
  checkLength_induction (P := fun t => t.fbuf = s.fbuf)
    (fun _ => checkCsum_induction (P := fun t => t.fbuf = s.fbuf) (by simp) (by simp)) (by simp)
@[simp] theorem recvBody_flen : (recvBody sh s).flen = s.flen :=
  checkLength_induction (P := fun t => t.flen = s.flen)
    (fun _ => checkCsum_induction (P := fun t => t.flen = s.flen) (by simp) (by simp)) (by simp)
theorem recvBody_f_beyond (i : Nat) (h : i < 85) (hi : frameFields sh ≤ i) (hc : i ≠ 84) :
    (recvBody sh s).f[i] = s.f[i] :=
  checkLength_induction (P := fun t => t.f[i] = s.f[i])
    (fun _ => checkCsum_induction (P := fun t => t.f[i] = s.f[i])
      (loadFields_f_beyond sh _ i h hi hc) (by simp)) (by simp)

/-- VERIFY's checksum in CALC, computed only where the length is right (R146, R147). -/
theorem verifyBody_calcReg :
    (verifyBody sh s).calcReg = if s.flen.toNat = frameSize sh then rxCsum sh s else s.calcReg := by
  by_cases h : s.flen.toNat = frameSize sh
  · rw [verifyBody, checkLength_of_eq _ h, if_pos h]
    exact checkCsum_induction (P := fun t => t.calcReg = rxCsum sh s) (by simp) (by simp)
  · rw [verifyBody, checkLength_of_ne _ h, if_neg h, raise_calcReg]

/-- RECV's checksum in CALC, computed only where the length is right (R148, R149). -/
theorem recvBody_calcReg :
    (recvBody sh s).calcReg = if s.flen.toNat = frameSize sh then rxCsum sh s else s.calcReg := by
  by_cases h : s.flen.toNat = frameSize sh
  · rw [recvBody, checkLength_of_eq _ h, if_pos h]
    exact checkCsum_induction (P := fun t => t.calcReg = rxCsum sh s) (by simp) (by simp)
  · rw [recvBody, checkLength_of_ne _ h, if_neg h, raise_calcReg]

end bodies

/-! ## RXPUSH -/

section rxPush
variable (v : Byte) (s : State)

/-- What holds in both cases of RXPUSH, a cell left or none (R166), holds after it. -/
theorem rxPush_induction {P : State → Prop}
    (hcell : ∀ h : s.flen.toNat < 85, P ((writeCell s.flen.toNat h v s).setFlen (satInc16 s.flen)))
    (hfull : P (s.setFlen (satInc16 s.flen))) : P (rxPush v s) := by
  obtain ⟨h, e⟩ | ⟨-, e⟩ := rxPush_cases v s
  · rw [e]; exact hcell h
  · rw [e]; exact hfull

@[simp] theorem rxPush_f : (rxPush v s).f = s.f :=
  rxPush_induction v s (P := fun t => t.f = s.f) (by simp) (by simp)
@[simp] theorem rxPush_flen : (rxPush v s).flen = satInc16 s.flen :=
  rxPush_induction v s (P := fun t => t.flen = satInc16 s.flen) (by simp) (by simp)
@[simp] theorem rxPush_cmdlast : (rxPush v s).cmdlast = s.cmdlast :=
  rxPush_induction v s (P := fun t => t.cmdlast = s.cmdlast) (by simp) (by simp)
@[simp] theorem rxPush_result : (rxPush v s).result = s.result :=
  rxPush_induction v s (P := fun t => t.result = s.result) (by simp) (by simp)
@[simp] theorem rxPush_shape : (rxPush v s).shape = s.shape :=
  rxPush_induction v s (P := fun t => t.shape = s.shape) (by simp) (by simp)
@[simp] theorem rxPush_done : (rxPush v s).done = s.done :=
  rxPush_induction v s (P := fun t => t.done = s.done) (by simp) (by simp)
@[simp] theorem rxPush_calcReg : (rxPush v s).calcReg = s.calcReg :=
  rxPush_induction v s (P := fun t => t.calcReg = s.calcReg) (by simp) (by simp)
@[simp] theorem rxPush_rst : (rxPush v s).rst = s.rst :=
  rxPush_induction v s (P := fun t => t.rst = s.rst) (by simp) (by simp)
@[simp] theorem rxPush_pending : (rxPush v s).pending = s.pending :=
  rxPush_induction v s (P := fun t => t.pending = s.pending) (by simp) (by simp)

/-- The pushed byte stands in the cell FLEN counted, and every other cell is as it was (R166). -/
theorem rxPush_cell (i : Nat) (hi : i < 85) :
    (rxPush v s).fbuf[i] = if i = s.flen.toNat then v else s.fbuf[i] := by
  obtain ⟨h, e⟩ | ⟨h, e⟩ := rxPush_cases v s
  · simp [e, Vector.getElem_set, eq_comm]
  · rw [e, if_neg (by omega), State.setFlen_fbuf]

end rxPush

/-! ## Reset -/

theorem assertRst_f_of_zero {s : State} (h : s.cfg.resetValues = .zero) :
    (assertRst s).f = Vector.replicate 85 0x00 := by simp [assertRst, h, resetBank]

theorem assertRst_fbuf_of_zero {s : State} (h : s.cfg.resetValues = .zero) :
    (assertRst s).fbuf = Vector.replicate 85 0x00 := by simp [assertRst, h, resetBank]

theorem controlAtReset_reset : ControlAtReset State.reset := by
  unfold ControlAtReset
  decide

/-- Asserting RST takes the control elements to the reset state's (R201), whatever RESET_VALUES is. -/
theorem controlAtReset_assertRst (s : State) : ControlAtReset (assertRst s) := controlAtReset_reset

/-- Settles O10: the two banks cell by cell, and R41's control elements. -/
theorem resetValuesOfEveryElement : Obligations.ResetValuesOfEveryElement := by
  refine ⟨fun i => ?_, fun i => ?_, controlAtReset_reset, fun s =>
    ⟨controlAtReset_assertRst s, fun hz => ⟨fun i => ?_, fun i => ?_⟩⟩⟩
  · simp [State.reset]
  · simp [State.reset]
  · simp [assertRst_f_of_zero hz]
  · simp [assertRst_fbuf_of_zero hz]

end Sys2Proof.Machine
end

section
/-! PROOFS. The control registers: which steps write CMDLAST, STATUS and CALC, and the invariant that ties them together. -/

namespace Sys2Proof.Machine

open Sys2Proof.Claims

/-! ## Which steps write the control registers -/

/-- CMDLAST, STATUS and CALC stay: what no host access but a CMD write touches. -/
def ControlUnchanged (s t : State) : Prop :=
  t.cmdlast = s.cmdlast ∧ StatusUnchanged s t ∧ t.calcReg = s.calcReg

/-- A host write to any address but CMD leaves the control registers (R165). -/
theorem memWrite_controlUnchanged {a v : Byte} {s t : State} (ha : a ≠ 0x60)
    (h : memWrite a v s = .next t) : ControlUnchanged s t := by
  obtain ⟨u, hu, hcases⟩ := memWrite_cases v s ha
  obtain rfl : u = t := by simpa [hu] using h
  unfold ControlUnchanged StatusUnchanged
  obtain ⟨i, hi, rfl⟩ | ⟨n, rfl⟩ | rfl | ⟨i, hi, rfl⟩ | rfl := hcases
  · simp
  · simp
  · simp
  · simp
  · simp

/-- A host access during RST leaves the control registers, FLEN and RST (R201). -/
theorem accessInReset_controlUnchanged (a : Access) (s : State) :
    ControlUnchanged s (accessInReset a s) ∧ (accessInReset a s).flen = s.flen ∧
      (accessInReset a s).rst = s.rst := by
  cases a with
  | read addr => exact ⟨⟨rfl, ⟨rfl, rfl, rfl⟩, rfl⟩, rfl, rfl⟩
  | write addr v => exact ⟨⟨rfl, ⟨rfl, rfl, rfl⟩, rfl⟩, rfl, rfl⟩

/-- A step takes an RST assertion, or performs a CMD write, or leaves the control registers; in the
last case RST is released after it unless it was asserted before, and then FLEN stays as well. -/
theorem step_control_cases {s t : State} (h : step s = .next t) :
    (∃ rest, s.pending = .rst true :: rest ∧ t = assertRst (s.setPending rest)) ∨
    (∃ c rest, s.pending = .host (.write 0x60 c) :: rest ∧ s.rst = false ∧
      cmdWrite c (s.setPending rest) = .next t) ∨
    (ControlUnchanged s t ∧ (t.rst = false ∨ t.flen = s.flen ∧ t.rst = s.rst)) := by
  obtain ⟨-, rfl⟩ | hassert | ⟨rest, -, rfl⟩ | ⟨rest, a, -, -, rfl⟩ | ⟨rest, a, -, -, rfl⟩ |
    ⟨rest, a, v, hp, hr, hw⟩ := step_cases h
  · exact .inr (.inr ⟨⟨rfl, ⟨rfl, rfl, rfl⟩, rfl⟩, .inr ⟨rfl, rfl⟩⟩)
  · exact .inl hassert
  · exact .inr (.inr ⟨⟨rfl, ⟨rfl, rfl, rfl⟩, rfl⟩, .inl rfl⟩)
  · obtain ⟨hctl, hflen⟩ := accessInReset_controlUnchanged a (s.setPending rest)
    exact .inr (.inr ⟨hctl, .inr hflen⟩)
  · exact .inr (.inr ⟨⟨rfl, ⟨rfl, rfl, rfl⟩, rfl⟩, .inr ⟨rfl, rfl⟩⟩)
  · by_cases ha : a = 0x60
    · subst ha
      exact .inr (.inl ⟨v, rest, hp, hr, hw⟩)
    · obtain ⟨hrst, -⟩ := memWrite_portUnchanged hw
      have hctl : ControlUnchanged (s.setPending rest) t := memWrite_controlUnchanged ha hw
      exact .inr (.inr ⟨hctl, .inl (hrst.trans hr)⟩)

/-- Settles O51: of the steps that write the control registers, a CMD write sets DONE. -/
theorem statusWrittenOnlyByCommands : Obligations.StatusWrittenOnlyByCommands := by
  intro s t h hne
  obtain ⟨rest, hp, -⟩ | ⟨c, rest, hp, hr, hw⟩ | ⟨⟨-, hstatus, -⟩, -⟩ := step_control_cases h
  · exact .inl ⟨rest, hp⟩
  · exact .inr ⟨c, rest, hp, hr, (cmdWrite_cmdlast hw).2⟩
  · exact absurd hstatus hne

/-- Settles O52: of the steps that write the control registers, a CMD write records its byte. -/
theorem cmdlastHoldsTheLastCommandByte : Obligations.CmdlastHoldsTheLastCommandByte := by
  refine ⟨fun s c => ?_, fun s t h hne => ?_⟩
  · obtain ⟨t, ht, hcmd, -⟩ := cmdWrite_records c s
    exact ⟨t, ht, hcmd⟩
  · obtain ⟨rest, hp, -⟩ | ⟨c, rest, hp, hr, hw⟩ | ⟨⟨hcmd, -⟩, -⟩ := step_control_cases h
    · exact .inl ⟨rest, hp⟩
    · obtain ⟨rfl, -⟩ := cmdWrite_cmdlast hw
      exact .inr ⟨rest, hp, hr⟩
    · exact absurd hcmd hne

/-! ## CALC -/

/-- VERIFY and RECV leave in CALC the recomputed checksum where the length is right, else the old value. -/
theorem exec_checksCsum_calcReg {sh : Shape} {i : Instr} {s t : State} (hi : ChecksCsum sh i)
    (h : exec i s = .next t) :
    t.calcReg = if s.flen.toNat = frameSize sh then rxCsum sh s else s.calcReg := by
  obtain rfl | rfl := hi
  · rw [exec_verify] at h
    injection h with h
    simp [← h, verifyBody_calcReg]
  · rw [exec_recv] at h
    injection h with h
    simp [← h, recvBody_calcReg]

/-- Only SEAL, and VERIFY and RECV of the right length, change CALC. -/
theorem exec_changes_calcReg {i : Instr} {s t : State} (h : exec i s = .next t)
    (hne : t.calcReg ≠ s.calcReg) :
    ∃ sh, i = .seal sh ∨ (ChecksCsum sh i ∧ s.flen.toNat = frameSize sh) := by
  have hcsum : ∀ sh, ChecksCsum sh i → s.flen.toNat = frameSize sh := fun sh hi => by
    by_contra hl
    exact hne (by rw [exec_checksCsum_calcReg hi h, if_neg hl])
  obtain rfl | rfl | ⟨sh, rfl | rfl | rfl | rfl | rfl⟩ := instr_cases_by_shape i
  · injection h with h
    exact absurd (by rw [← h, recordCommand_calcReg]) hne
  · injection h with h
    exact absurd (by simp [← h]) hne
  · rw [exec_pack] at h
    injection h with h
    exact absurd (by simp [← h]) hne
  · exact ⟨sh, .inl rfl⟩
  · rw [exec_unpack] at h
    injection h with h
    exact absurd (by simp [← h]) hne
  · exact ⟨sh, .inr ⟨.inl rfl, hcsum sh (.inl rfl)⟩⟩
  · exact ⟨sh, .inr ⟨.inr rfl, hcsum sh (.inr rfl)⟩⟩

/-- Settles O50: CALC after each command that computes a checksum, and no other write of it. -/
theorem calcHoldsTheLastComputedChecksum : Obligations.CalcHoldsTheLastComputedChecksum := by
  refine ⟨fun sh s t h => ?_, fun sh i s t => exec_checksCsum_calcReg, fun s v => ⟨rfl, rfl⟩,
    fun s t h hne => ?_⟩
  · rw [exec_seal] at h
    injection h with h
    simp [← h]
  · obtain ⟨rest, hp, -⟩ | ⟨c, rest, hp, hr, hw⟩ | ⟨⟨-, -, hcalc⟩, -⟩ := step_control_cases h
    · exact .inl ⟨rest, hp⟩
    · cases hd : decode c with
      | legal i =>
        rw [cmdWrite_legal hd] at hw
        obtain ⟨sh, hi⟩ := exec_changes_calcReg hw hne
        exact .inr ⟨c, rest, sh, i, hp, hr, hd, hi⟩
      | illegal why =>
        rw [cmdWrite_illegal hd] at hw
        injection hw with hw
        exact absurd (by simp [← hw]) hne
    · exact absurd hcalc hne

/-! ## The invariant -/

/-- The three parts of the invariant. -/
theorem consistent_iff (s : State) : consistent s = true ↔
    statusTellsCommand s = true ∧ freshUntilDone s = true ∧ quietWhileReset s = true := by
  simp [consistent, and_assoc]

theorem statusTellsCommand_congr {s t : State} (h : ControlUnchanged s t) :
    statusTellsCommand t = statusTellsCommand s := by
  obtain ⟨hcmd, ⟨hres, hshape, -⟩, -⟩ := h
  simp [statusTellsCommand, hcmd, hres, hshape]

theorem freshUntilDone_congr {s t : State} (h : ControlUnchanged s t) :
    freshUntilDone t = freshUntilDone s := by
  obtain ⟨hcmd, ⟨hres, hshape, hdone⟩, hcalc⟩ := h
  simp [freshUntilDone, hcmd, hres, hshape, hdone, hcalc]

/-- After NOP, or no command since reset, every STATUS is possible (R160). -/
theorem statusTellsCommand_of_nop {s : State} (h : s.cmdlast = encode .nop) :
    statusTellsCommand s = true := by
  simp [statusTellsCommand, h]

theorem freshUntilDone_of_done {s : State} (h : s.done = true) : freshUntilDone s = true := by
  simp [freshUntilDone, h]

theorem quietWhileReset_of_released {s : State} (h : s.rst = false) : quietWhileReset s = true := by
  simp [quietWhileReset, h]

/-- After reset the invariant holds, at either level of RST (R41). -/
theorem consistent_of_controlAtReset {s : State} (h : ControlAtReset s) : consistent s = true := by
  obtain ⟨hflen, hcmd, -, hres, hshape, hdone, hcalc⟩ := h
  rw [consistent_iff]
  refine ⟨statusTellsCommand_of_nop hcmd, ?_, ?_⟩
  · simp [freshUntilDone, hcmd, hres, hshape, hcalc]
  · simp [quietWhileReset, hflen, hdone]

/-- A command other than NOP leaves a result that R181 gives it. -/
theorem exec_result_possible {i : Instr} {s t : State} (h : exec i s = .next t) (hi : i ≠ .nop) :
    t.result ∈ possibleResults i := by
  obtain ⟨rfl, rfl⟩ | ⟨sh, rfl, rfl⟩ | ⟨sh, rfl, rfl⟩ | ⟨sh, rfl, -, rfl⟩ | ⟨sh, hi, -, rfl⟩ |
    ⟨sh, hi, -, -, rfl⟩ | ⟨sh, rfl, -, -, rfl⟩ | ⟨sh, rfl, -, -, rfl⟩ := exec_cases h hi
  · simp [possibleResults]
  · cases sh <;> simp [Instr.pack, possibleResults]
  · cases sh <;> simp [Instr.seal, possibleResults]
  · cases sh <;> simp [Instr.unpack, possibleResults]
  · obtain rfl | rfl | rfl := hi <;> cases sh <;>
      simp [Instr.unpack, Instr.verify, Instr.recv, possibleResults]
  · obtain rfl | rfl := hi <;> cases sh <;> simp [Instr.verify, Instr.recv, possibleResults]
  · cases sh <;> simp [Instr.verify, possibleResults]
  · cases sh <;> simp [Instr.recv, possibleResults]

/-- After any command STATUS and CMDLAST tell its outcome (R36, R163, R181). -/
theorem exec_statusTellsCommand {i : Instr} {s t : State} (h : exec i s = .next t) :
    statusTellsCommand t = true := by
  obtain ⟨hcmd, -, hshape⟩ := exec_prologue h
  by_cases hi : i = .nop
  · subst hi
    exact statusTellsCommand_of_nop hcmd
  · have hres := exec_result_possible h hi
    rw [if_neg hi] at hshape
    simp [statusTellsCommand, hcmd, hshape, hres]

/-- After any CMD write, of a legal byte or not, STATUS and CMDLAST tell its outcome. -/
theorem cmdWrite_statusTellsCommand {c : Byte} {s t : State} (h : cmdWrite c s = .next t) :
    statusTellsCommand t = true := by
  cases hd : decode c with
  | legal i => exact exec_statusTellsCommand (by rwa [cmdWrite_legal hd] at h)
  | illegal why =>
    rw [cmdWrite_illegal hd] at h
    injection h with h
    simp [← h, statusTellsCommand, hd]

/-- Settles O54, from the reset values of the control registers. -/
theorem resetIsConsistent : Obligations.ResetIsConsistent :=
  consistent_of_controlAtReset controlAtReset_reset

/-- Settles O55: an RST assertion and a CMD write establish each part of the invariant anew, and every
other step leaves the registers it speaks of. -/
theorem stepKeepsConsistency : Obligations.StepKeepsConsistency := by
  intro s t hs h
  obtain ⟨rest, -, rfl⟩ | ⟨c, rest, -, hr, hw⟩ | ⟨hctl, hquiet⟩ := step_control_cases h
  · exact consistent_of_controlAtReset (controlAtReset_assertRst _)
  · obtain ⟨hrst, -⟩ := memWrite_portUnchanged (a := 0x60) hw
    rw [consistent_iff]
    exact ⟨cmdWrite_statusTellsCommand hw, freshUntilDone_of_done (cmdWrite_cmdlast hw).2,
      quietWhileReset_of_released (hrst.trans hr)⟩
  · rw [consistent_iff] at hs ⊢
    obtain ⟨htells, hfresh, hq⟩ := hs
    refine ⟨by rwa [statusTellsCommand_congr hctl], by rwa [freshUntilDone_congr hctl], ?_⟩
    obtain hrst | ⟨hflen, hrst⟩ := hquiet
    · exact quietWhileReset_of_released hrst
    · obtain ⟨-, ⟨-, -, hdone⟩, -⟩ := hctl
      simpa [quietWhileReset, hrst, hflen, hdone] using hq

end Sys2Proof.Machine
end

section
/-! PROOFS. Frames through the host's reads: what a data write and each command leave as it was. -/

namespace Sys2Proof.Machine

open Sys2Proof.Claims

/-! ## The two byte banks at the host port -/

section banks
variable {a : Byte}

theorem ne_of_cell_address (h : 0x80 ≤ a.toNat ∧ a.toNat ≤ 0xD4) {b : Byte} (hb : b.toNat < 0x80) :
    a ≠ b := by
  rintro rfl
  omega

/-- The addresses of FBUF are none of those below it (R61). -/
theorem cell_address_not_below (h : 0x80 ≤ a.toNat ∧ a.toNat ≤ 0xD4) :
    ¬ a.toNat ≤ 0x54 ∧ a ≠ 0x60 ∧ a ≠ 0x61 ∧ a ≠ 0x62 ∧ a ≠ 0x63 ∧ a ≠ 0x64 ∧ a ≠ 0x65 :=
  ⟨by omega, ne_of_cell_address h (by decide), ne_of_cell_address h (by decide),
    ne_of_cell_address h (by decide), ne_of_cell_address h (by decide),
    ne_of_cell_address h (by decide), ne_of_cell_address h (by decide)⟩

theorem memRead_field (h : a.toNat ≤ 0x54) (s : State) :
    memRead s a = s.f[a.toNat]'(Nat.lt_succ_of_le h) := by
  simp [memRead, readField, h]

theorem memRead_cell (h : 0x80 ≤ a.toNat ∧ a.toNat ≤ 0xD4) (s : State) :
    memRead s a = s.fbuf[a.toNat - 0x80]'(by omega) := by
  obtain ⟨h54, h60, h61, h62, h63, h64, h65⟩ := cell_address_not_below h
  rw [memRead, dif_neg h54, if_neg h60, if_neg h61, if_neg h62, if_neg h63, if_neg h64, if_neg h65,
    dif_pos h, readCell]

theorem memWrite_field (h : a.toNat ≤ 0x54) (v : Byte) (s : State) :
    memWrite a v s = .next (writeField a.toNat (Nat.lt_succ_of_le h) v s) := by
  simp [memWrite, h]

theorem memWrite_cell (h : 0x80 ≤ a.toNat ∧ a.toNat ≤ 0xD4) (v : Byte) (s : State) :
    memWrite a v s = .next (writeCell (a.toNat - 0x80) (cellIndex_lt h.2) v s) := by
  obtain ⟨h54, h60, h61, h62, h63, h64, h65⟩ := cell_address_not_below h
  rw [memWrite, dif_neg h54, if_neg h60, if_neg (not_or.mpr ⟨h61, h62⟩), if_neg h63, if_neg h64,
    if_neg h65, dif_pos h]

end banks

/-! ## A data write reads back and touches nothing else -/

/-- In `t` the address `a` reads as `v`, and every other address reads as in `s`. -/
def ReadsChangedOnlyAt (a v : Byte) (s t : State) : Prop :=
  memRead t a = v ∧ ∀ b, b ≠ a → memRead t b = memRead s b

theorem writeField_readsChangedOnlyAt {a : Byte} (h : a.toNat ≤ 0x54) (v : Byte) (s : State) :
    ReadsChangedOnlyAt a v s (writeField a.toNat (Nat.lt_succ_of_le h) v s) := by
  refine ⟨by simp [memRead_field h], fun b hb => ?_⟩
  have hne : a.toNat ≠ b.toNat := fun e => hb (BitVec.eq_of_toNat_eq e.symm)
  exact memRead_congr (fun _ => by simp [hne]) (fun _ _ _ => rfl) (fun _ => rfl) (fun _ => rfl)
    (fun _ => rfl) (fun _ => rfl)

theorem writeCell_readsChangedOnlyAt {a : Byte} (h : 0x80 ≤ a.toNat ∧ a.toNat ≤ 0xD4) (v : Byte)
    (s : State) : ReadsChangedOnlyAt a v s (writeCell (a.toNat - 0x80) (cellIndex_lt h.2) v s) := by
  refine ⟨by simp [memRead_cell h], fun b hb => ?_⟩
  have hne : a.toNat ≠ b.toNat := fun e => hb (BitVec.eq_of_toNat_eq e.symm)
  refine memRead_congr (fun _ => rfl) (fun i hi e => ?_) (fun _ => rfl) (fun _ => rfl)
    (fun _ => rfl) (fun _ => rfl)
  simpa only [writeCell_fbuf] using Vector.getElem_set_ne _ _ (by omega)

/-- A new value of FLEN changes no read but those of its two bytes (R66). -/
theorem memRead_setFlen {b : Byte} (hl : b ≠ 0x63) (hh : b ≠ 0x64) (n : Half) (s : State) :
    memRead (s.setFlen n) b = memRead s b :=
  memRead_congr (fun _ => rfl) (fun _ _ _ => rfl) (fun _ => rfl) (fun _ => rfl) (fun _ => rfl)
    fun e => absurd e (not_or.mpr ⟨hl, hh⟩)

theorem setLowByte_readsChangedOnlyAt (v : Byte) (s : State) :
    ReadsChangedOnlyAt 0x63 v s (s.setFlen (joinBytes (highByte s.flen) v)) := by
  refine ⟨lowByte_joinBytes _ _, fun b hb => ?_⟩
  by_cases hh : b = 0x64
  · subst hh
    exact highByte_joinBytes _ _
  · exact memRead_setFlen hb hh _ s

theorem setHighByte_readsChangedOnlyAt (v : Byte) (s : State) :
    ReadsChangedOnlyAt 0x64 v s (s.setFlen (joinBytes v (lowByte s.flen))) := by
  refine ⟨highByte_joinBytes _ _, fun b hb => ?_⟩
  by_cases hl : b = 0x63
  · subst hl
    exact lowByte_joinBytes _ _
  · exact memRead_setFlen hl hb _ s

/-- A write to a read-write address answers a state that reads differently there alone. -/
theorem memWrite_readsChangedOnlyAt {a : Byte} (h : ReadWrite a) (v : Byte) (s : State) :
    ∃ t, memWrite a v s = .next t ∧ ReadsChangedOnlyAt a v s t := by
  obtain hf | rfl | rfl | hc := h
  · exact ⟨_, memWrite_field hf v s, writeField_readsChangedOnlyAt hf v s⟩
  · exact ⟨_, rfl, setLowByte_readsChangedOnlyAt v s⟩
  · exact ⟨_, rfl, setHighByte_readsChangedOnlyAt v s⟩
  · exact ⟨_, memWrite_cell hc v s, writeCell_readsChangedOnlyAt hc v s⟩

/-- Settles O38, for the four kinds of read-write address. -/
theorem writesReadBackAndTouchNothingElse : Obligations.WritesReadBackAndTouchNothingElse := by
  intro s a v ha
  obtain ⟨t, ht, hread, hother⟩ := memWrite_readsChangedOnlyAt ha v s
  exact ⟨t, ht, hread, hother, memWrite_portUnchanged ht⟩

/-! ## The frame of each command -/

/-- Settles O41: PACK's cells lie below `SIZE(sh)`, and no address outside them shows FBUF's change. -/
theorem frameOfPack : Obligations.FrameOfPack := by
  intro sh s t h
  obtain rfl := Host.Outcome.next.inj ((exec_pack sh s).symm.trans h)
  refine ⟨exec_portUnchanged h, fun a hcells ha => ?_⟩
  obtain ⟨h60, h61, h63, h64⟩ : a ≠ 0x60 ∧ a ≠ 0x61 ∧ a ≠ 0x63 ∧ a ≠ 0x64 := by simpa using ha
  refine memRead_congr (fun _ => by simp) (fun i hi e => ?_) (absurd · h60) (absurd · h61)
    (fun _ => by simp) (absurd · (not_or.mpr ⟨h63, h64⟩))
  have hs := frameSize_eq sh
  rw [packBody_cell, if_neg (by omega), if_neg (by omega), beginCommand_fbuf]

/-- A command that leaves FBUF, FLEN and the field registers beyond its shape's leaves every address
but its own fields, CHK, CMDLAST, STATUS and CALC. -/
theorem memRead_of_fields_beyond {sh : Shape} {s t : State} (hbuf : t.fbuf = s.fbuf)
    (hlen : t.flen = s.flen)
    (hf : ∀ (i : Nat) (h : i < 85), frameFields sh ≤ i → i ≠ 84 → t.f[i] = s.f[i]) {a : Byte}
    (ha : frameFields sh ≤ a.toNat) (h54 : a ≠ 0x54) (h60 : a ≠ 0x60) (h61 : a ≠ 0x61)
    (h62 : a = 0x62 → t.calcReg = s.calcReg) : memRead t a = memRead s a := by
  have hc : a.toNat ≠ 84 := fun e => h54 (BitVec.eq_of_toNat_eq e)
  exact memRead_congr (fun h => hf _ h ha hc) (fun _ _ _ => by rw [hbuf]) (absurd · h60)
    (absurd · h61) h62 (fun _ => hlen)

/-- Settles O42, command by command from what its body leaves. -/
theorem frameOfFieldWriters : Obligations.FrameOfFieldWriters := by
  intro sh s
  refine ⟨fun t h => ?_, fun t h => ?_, fun t h => ?_⟩
  · obtain rfl := Host.Outcome.next.inj ((exec_unpack sh s).symm.trans h)
    refine ⟨exec_portUnchanged h, by simp, fun a hn ha => ?_⟩
    obtain ⟨h54, h60, h61⟩ : a ≠ 0x54 ∧ a ≠ 0x60 ∧ a ≠ 0x61 := by simpa using ha
    refine memRead_of_fields_beyond (by simp) (by simp) ?_ hn h54 h60 h61 (fun _ => by simp)
    exact unpackBody_f_beyond sh _
  · obtain rfl := Host.Outcome.next.inj ((exec_recv sh s).symm.trans h)
    refine ⟨exec_portUnchanged h, fun a hn ha => ?_⟩
    obtain ⟨h54, h60, h61, h62⟩ : a ≠ 0x54 ∧ a ≠ 0x60 ∧ a ≠ 0x61 ∧ a ≠ 0x62 := by simpa using ha
    refine memRead_of_fields_beyond (by simp) (by simp) ?_ hn h54 h60 h61 (absurd · h62)
    exact recvBody_f_beyond sh _
  · obtain rfl := Host.Outcome.next.inj ((exec_seal sh s).symm.trans h)
    refine ⟨exec_portUnchanged h, fun a ha => ?_⟩
    obtain ⟨h54, h60, h61, h62⟩ : a ≠ 0x54 ∧ a ≠ 0x60 ∧ a ≠ 0x61 ∧ a ≠ 0x62 := by simpa using ha
    have hc : 84 ≠ a.toNat := fun e => h54 (BitVec.eq_of_toNat_eq e.symm)
    exact memRead_congr (fun _ => by simp [hc]) (fun _ _ _ => by simp) (absurd · h60)
      (absurd · h61) (absurd · h62) (fun _ => by simp)

/-- Settles O43: the three commands write no field register and no cell. -/
theorem frameOfCheckersAndControl : Obligations.FrameOfCheckersAndControl := by
  intro s
  refine ⟨fun sh t h => ?_, fun t h => ?_, fun t h => ?_⟩
  · obtain rfl := Host.Outcome.next.inj ((exec_verify sh s).symm.trans h)
    refine ⟨exec_portUnchanged h, fun a ha => ?_⟩
    obtain ⟨h60, h61, h62⟩ : a ≠ 0x60 ∧ a ≠ 0x61 ∧ a ≠ 0x62 := by simpa using ha
    exact memRead_congr (fun _ => by simp) (fun _ _ _ => by simp) (absurd · h60) (absurd · h61)
      (absurd · h62) (fun _ => by simp)
  · obtain rfl := Host.Outcome.next.inj h
    refine ⟨exec_portUnchanged h, fun a ha => ?_⟩
    obtain ⟨h60, h61, h63, h64⟩ : a ≠ 0x60 ∧ a ≠ 0x61 ∧ a ≠ 0x63 ∧ a ≠ 0x64 := by simpa using ha
    exact memRead_congr (fun _ => rfl) (fun _ _ _ => rfl) (absurd · h60) (absurd · h61)
      (fun _ => rfl) (absurd · (not_or.mpr ⟨h63, h64⟩))
  · obtain rfl := Host.Outcome.next.inj h
    refine ⟨exec_portUnchanged h, rfl, rfl, fun a ha => ?_⟩
    obtain ⟨h60, h61⟩ : a ≠ 0x60 ∧ a ≠ 0x61 := by simpa using ha
    exact memRead_congr (fun _ => rfl) (fun _ _ _ => rfl) (absurd · h60) (absurd · h61)
      (fun _ => rfl) (fun _ => rfl)

end Sys2Proof.Machine
end

section
/-! PROOFS. Shape S and LINE: what neither reads nor writes the line registers, closed under the operations the shape-S commands are made of (R32, R207). -/

namespace Sys2Proof.Machine

open Sys2Proof.Claims

/-- `s'` is `s` with other line registers `F[0x04..0x53]`, if any. -/
def DifferOnlyInLine (s s' : State) : Prop := SameFields .S s s' ∧ s'.setF s.f = s

/-- The operation leaves the line registers, and does the same to all else whatever they hold. -/
structure IgnoresLine (op : State → State) : Prop where
  keeps : ∀ (s : State) (i : Nat) (h : i < 85), 4 ≤ i → i ≠ 84 → (op s).f[i] = s.f[i]
  respects : ∀ {s s' : State}, DifferOnlyInLine s s' → DifferOnlyInLine (op s) (op s')

theorem IgnoresLine.comp {op op' : State → State} (h : IgnoresLine op) (h' : IgnoresLine op') :
    IgnoresLine (fun s => op (op' s)) where
  keeps s i hi h4 hc := (h.keeps (op' s) i hi h4 hc).trans (h'.keeps s i hi h4 hc)
  respects hs := h.respects (h'.respects hs)

/-- An operation beside the field registers: it leaves F, and commutes with any write of F. -/
theorem IgnoresLine.of_commutes {op : State → State} (hf : ∀ s, (op s).f = s.f)
    (hset : ∀ s v, op (s.setF v) = (op s).setF v) : IgnoresLine op where
  keeps s i hi _ _ := by rw [hf]
  respects {s s'} hs := by
    obtain ⟨hsame, hs⟩ := hs
    refine ⟨by simpa only [SameFields, hf] using hsame, ?_⟩
    rw [hf, ← hset, hs]

theorem ignoresLine_beginCommand (c : Byte) : IgnoresLine (beginCommand c) :=
  .of_commutes (fun _ => rfl) (fun _ _ => rfl)

theorem ignoresLine_complete : IgnoresLine complete :=
  .of_commutes (fun _ => rfl) (fun _ _ => rfl)

theorem ignoresLine_raise (e : Result) : IgnoresLine (raise e) :=
  .of_commutes (fun _ => rfl) (fun _ _ => rfl)

/-- The checksum of the received bytes reads no field register. -/
theorem ignoresLine_setCalc_rxCsum (sh : Shape) : IgnoresLine (fun s => s.setCalc (rxCsum sh s)) :=
  .of_commutes (fun _ => rfl) (fun _ _ => rfl)

section
variable {s s' : State}

/-- States that differ only in LINE are one state with two banks F. -/
theorem DifferOnlyInLine.eq_setF (h : DifferOnlyInLine s s') : s' = s.setF s'.f := by
  obtain ⟨-, hs⟩ := h
  rw [← hs]
  rfl

/-- Writes of F that agree outside LINE. -/
theorem DifferOnlyInLine.setF (h : DifferOnlyInLine s s') {v w : Vector Byte 85}
    (h4 : ∀ (i : Nat) (hi : i < 85), i < 4 → w[i] = v[i]) (hc : w[84] = v[84]) :
    DifferOnlyInLine (s.setF v) (s'.setF w) := by
  refine ⟨⟨fun i hi => h4 i i.isLt hi, hc⟩, ?_⟩
  rw [h.eq_setF]
  rfl

theorem DifferOnlyInLine.fbuf_eq (h : DifferOnlyInLine s s') : s'.fbuf = s.fbuf := by
  rw [h.eq_setF, State.setF_fbuf]

theorem DifferOnlyInLine.flen_eq (h : DifferOnlyInLine s s') : s'.flen = s.flen := by
  rw [h.eq_setF, State.setF_flen]

theorem DifferOnlyInLine.rxCheck_eq (sh : Shape) (h : DifferOnlyInLine s s') :
    rxCheck sh s' = rxCheck sh s := by
  rw [h.eq_setF]
  rfl

theorem DifferOnlyInLine.rxCsum_eq (sh : Shape) (h : DifferOnlyInLine s s') :
    rxCsum sh s' = rxCsum sh s := by
  rw [h.eq_setF]
  rfl

theorem DifferOnlyInLine.field_eq (h : DifferOnlyInLine s s') (i : Nat) (hi : i < 85) (h4 : i < 4) :
    s'.f[i] = s.f[i] := by
  obtain ⟨⟨hfields, -⟩, -⟩ := h
  exact hfields ⟨i, hi⟩ h4

theorem DifferOnlyInLine.chkReg_eq (h : DifferOnlyInLine s s') : chkReg s' = chkReg s := by
  obtain ⟨⟨-, hchk⟩, -⟩ := h
  exact hchk

theorem DifferOnlyInLine.fieldBytes_eq (h : DifferOnlyInLine s s') :
    fieldBytes .S s' = fieldBytes .S s :=
  fieldBytes_congr h.field_eq

theorem DifferOnlyInLine.fieldCsum_eq (h : DifferOnlyInLine s s') :
    fieldCsum .S s' = fieldCsum .S s := by
  have hcfg : s'.cfg = s.cfg := by rw [h.eq_setF, State.setF_cfg]
  rw [fieldCsum, fieldCsum, h.fieldBytes_eq, hcfg]

theorem DifferOnlyInLine.frameImage_eq (h : DifferOnlyInLine s s') :
    frameImage .S s' = frameImage .S s := by
  rw [frameImage, frameImage, h.fieldBytes_eq, h.chkReg_eq]

end

/-! ## The shape-S commands are made of operations that ignore LINE -/

theorem ignoresLine_storeFrame (v : Vector Byte 85) (n : Half) :
    IgnoresLine (fun s => complete ((s.setFbuf v).setFlen n)) :=
  .of_commutes (fun _ => rfl) (fun _ _ => rfl)

/-- PACK.S reads of F the message alone, so both states store one frame. -/
theorem ignoresLine_packBody : IgnoresLine (packBody .S) where
  keeps s i hi _ _ := by rw [packBody_f]
  respects {s s'} hs := by
    unfold packBody
    rw [hs.frameImage_eq, hs.fbuf_eq]
    exact (ignoresLine_storeFrame _ _).respects hs

theorem ignoresLine_setCalc (v : Byte) : IgnoresLine (fun s => s.setCalc v) :=
  .of_commutes (fun _ => rfl) (fun _ _ => rfl)

/-- SEAL.S reads of F the message alone, so both states take one checksum. -/
theorem ignoresLine_sealBody : IgnoresLine (sealBody .S) where
  keeps s i hi _ hc := by rw [sealBody_f, Vector.getElem_set_ne _ _ hc.symm]
  respects {s s'} hs := by
    unfold sealBody writeField
    rw [hs.fieldCsum_eq]
    refine (ignoresLine_complete.comp (ignoresLine_setCalc _)).respects (hs.setF ?_ ?_)
    · intro i hi h4
      have hc : 84 ≠ i := by omega
      simpa [hc] using hs.field_eq i hi h4
    · simp

/-- UNPACK.S and RECV.S load the message alone, from the buffer both states share. -/
theorem ignoresLine_loadFields : IgnoresLine (loadFields .S) where
  keeps s i hi h4 hc := loadFields_f_beyond .S s i hi h4 hc
  respects {s s'} hs := by
    have hload : ∀ (i : Nat) (hi : i < 85), i < 4 ∨ i = 84 →
        (loadFields .S s').f[i] = (loadFields .S s).f[i] := by
      intro i hi hfield
      simp only [loadFields_cell, hs.rxCheck_eq, hs.fbuf_eq]
      split
      · rfl
      · next hc =>
        have h4 : i < frameFields .S := hfield.resolve_right hc
        rw [if_pos h4, if_pos h4]
    exact hs.setF (fun i hi h4 => hload i hi (.inl h4)) (hload 84 (by decide) (.inr rfl))

theorem IgnoresLine.checkLength {rest : State → State} (h : IgnoresLine rest) (sh : Shape) :
    IgnoresLine (checkLength sh rest) where
  keeps s i hi h4 hc := checkLength_induction (P := fun t => t.f[i] = s.f[i])
    (fun _ => h.keeps s i hi h4 hc) (by simp)
  respects {s s'} hs := by
    by_cases hl : s.flen.toNat = frameSize sh
    · rw [checkLength_of_eq _ hl, checkLength_of_eq _ (by rw [hs.flen_eq, hl])]
      exact h.respects hs
    · rw [checkLength_of_ne _ hl, checkLength_of_ne _ (by rwa [hs.flen_eq])]
      exact (ignoresLine_raise _).respects hs

theorem IgnoresLine.checkCsum {rest : State → State} (h : IgnoresLine rest) (sh : Shape) :
    IgnoresLine (checkCsum sh rest) where
  keeps s i hi h4 hc := checkCsum_induction (P := fun t => t.f[i] = s.f[i])
    (h.keeps _ i hi h4 hc) (by simp)
  respects {s s'} hs := by
    have hcalc := (ignoresLine_setCalc_rxCsum sh).respects hs
    by_cases hl : rxCsum sh s = rxCheck sh s
    · rw [checkCsum_of_eq _ hl, checkCsum_of_eq _ (by rw [hs.rxCsum_eq, hs.rxCheck_eq, hl])]
      exact h.respects hcalc
    · rw [checkCsum_of_ne _ hl, checkCsum_of_ne _ (by rwa [hs.rxCsum_eq, hs.rxCheck_eq])]
      exact (ignoresLine_raise _).respects hcalc

theorem ignoresLine_unpackBody : IgnoresLine (unpackBody .S) :=
  (ignoresLine_complete.comp ignoresLine_loadFields).checkLength .S

theorem ignoresLine_verifyBody : IgnoresLine (verifyBody .S) :=
  (ignoresLine_complete.checkCsum .S).checkLength .S

theorem ignoresLine_recvBody : IgnoresLine (recvBody .S) :=
  ((ignoresLine_complete.comp ignoresLine_loadFields).checkCsum .S).checkLength .S

/-- Each of the five shape-S commands is an operation that ignores LINE. -/
theorem exec_shapeS_ignoresLine {i : Instr}
    (hi : i ∈ [Instr.packS, Instr.sealS, Instr.unpackS, Instr.verifyS, Instr.recvS]) :
    ∃ op, IgnoresLine op ∧ ∀ s, exec i s = .next (op s) := by
  obtain rfl | rfl | rfl | rfl | rfl :
      i = .packS ∨ i = .sealS ∨ i = .unpackS ∨ i = .verifyS ∨ i = .recvS := by simpa using hi
  · exact ⟨_, ignoresLine_packBody.comp (ignoresLine_beginCommand _), exec_pack .S⟩
  · exact ⟨_, ignoresLine_sealBody.comp (ignoresLine_beginCommand _), exec_seal .S⟩
  · exact ⟨_, ignoresLine_unpackBody.comp (ignoresLine_beginCommand _), exec_unpack .S⟩
  · exact ⟨_, ignoresLine_verifyBody.comp (ignoresLine_beginCommand _), exec_verify .S⟩
  · exact ⟨_, ignoresLine_recvBody.comp (ignoresLine_beginCommand _), exec_recv .S⟩

/-- Settles O49: what ignores LINE keeps it in both states, and carries their agreement along. -/
theorem shapeSNeverTouchesLine : Obligations.ShapeSNeverTouchesLine := by
  intro i s s' t hi hsame hset h
  obtain ⟨op, hop, hexec⟩ := exec_shapeS_ignoresLine hi
  obtain rfl := Host.Outcome.next.inj ((hexec s).symm.trans h)
  obtain ⟨hsame', hset'⟩ := hop.respects ⟨hsame, hset⟩
  have hkeeps : ∀ (u : State) (j : Fin 85), 4 ≤ j.val → j.val ≤ 0x53 → (op u).f[j] = u.f[j] :=
    fun u j h4 h53 => hop.keeps u j j.isLt h4 (by omega)
  exact ⟨hkeeps s, op s', hexec s', hsame', hset', hkeeps s'⟩

end Sys2Proof.Machine
end

section
/-! PROOFS. Runs of pushes: RXPUSH as a step, and any sequence of them (R34, R166). -/

namespace Sys2Proof.Machine

open Sys2Proof.Claims

/-- A step whose event is a push. -/
theorem step_push {s : State} {v : Byte} {rest : List Event} (hr : s.rst = false)
    (hp : s.pending = .host (.write 0x65 v) :: rest) :
    step s = .next (rxPush v (s.setPending rest)) :=
  step_write hr hp rfl

/-- The cells after a first push and then the others are those after the whole sequence: one more byte
counted, one more byte placed. -/
theorem pushed_cell_cons (v d : Byte) (bs : List Byte) {n n' i : Nat} (hi : i < 85)
    (hn : n' = min (n + 1) 0xFFFF) :
    (if n' ≤ i then bs.getD (i - n') (if i = n then v else d) else if i = n then v else d) =
      if n ≤ i then (v :: bs).getD (i - n) d else d := by
  obtain hlt | rfl | hgt := Nat.lt_trichotomy i n
  · rw [if_neg (by omega), if_neg (by omega), if_neg (by omega)]
  · rw [if_neg (by omega), if_pos rfl, if_pos le_rfl, Nat.sub_self, List.getD_cons_zero]
  · have hk : i - n = (i - n') + 1 := by omega
    rw [if_pos (by omega), if_neg (by omega), if_pos (by omega), hk, List.getD_cons_succ]

/-- Settles O57, by induction on the pushed sequence, from any FLEN. -/
theorem pushedSequenceLandsAtFlen : Obligations.PushedSequenceLandsAtFlen := by
  intro bs
  induction bs with
  | nil =>
    intro s rest _ hp
    have hlen := s.flen.isLt
    refine ⟨s, rfl, hp, ?_, fun i => by simp, rfl, rfl, rfl, rfl, rfl, rfl⟩
    simp only [List.length_nil]
    omega
  | cons v bs ih =>
    intro s rest hr hp
    have hstep := step_push hr hp
    obtain ⟨t, hrun, hrest, hflen, hcell, hf, hcalc, hcmd, hres, hshape, hdone⟩ :=
      ih (rxPush v (s.setPending (bs.map (fun v => .host (.write 0x65 v)) ++ rest))) rest
        (by simpa using hr) (by simp)
    simp only [rxPush_flen, State.setPending_flen, satInc16_toNat] at hflen hcell
    refine ⟨t, (run_succ Sys2Proof.core bs.length _ _ hstep).trans hrun, hrest, ?_, fun i => ?_,
      by simpa using hf, by simpa using hcalc, by simpa using hcmd, by simpa using hres,
      by simpa using hshape, by simpa using hdone⟩
    · rw [hflen, List.length_cons]
      omega
    · rw [hcell i, Fin.getElem_fin, rxPush_cell]
      exact pushed_cell_cons v _ bs i.isLt rfl

end Sys2Proof.Machine
end

section
/-! PROOFS. Steps at the host port: a step is the oldest event handled, and every event is answered; and FLEN through its two bytes. -/

namespace Sys2Proof.Machine

open Sys2Proof.Claims

/-! ## A step handles the oldest event -/

theorem step_idle {s : State} (hp : s.pending = []) : step s = .next s := by
  simp only [step, nextEvent, hp]

/-- A step takes the oldest event off the list and handles it (R69). -/
theorem step_event {s : State} {e : Event} {rest : List Event} (hp : s.pending = e :: rest) :
    step s = handleEvent e (s.setPending rest) := by
  simp only [step, nextEvent, hp]

/-- With RST released a host access reaches the block (R69). -/
theorem step_hostAccess {s : State} {a : Access} {rest : List Event} (hr : s.rst = false)
    (hp : s.pending = .host a :: rest) : step s = hostAccess a (s.setPending rest) := by
  rw [step_event hp]
  exact if_neg (by simp [hr])

/-- No register shows the host's further accesses (R164). -/
@[simp] theorem memRead_setPending (es : List Event) (s : State) (a : Byte) :
    memRead (s.setPending es) a = memRead s a := rfl

/-- Settles O6: a read's answer goes to the read log alone, and a write is `memWrite` itself. -/
theorem stepPerformsTheHostAccess : Obligations.StepPerformsTheHostAccess := by
  refine fun s rest hr => ⟨fun a hp => ?_, fun a v hp => step_hostAccess hr hp⟩
  have hread : step s = .next (answer (memRead s a) (s.setPending rest)) := step_hostAccess hr hp
  exact ⟨_, hread, rfl, ⟨rfl, rfl, rfl, rfl, ⟨rfl, rfl, rfl⟩, rfl⟩, rfl, hr, rfl, rfl⟩

/-! ## Every event is answered -/

@[simp] theorem accessInReset_pending (a : Access) (s : State) :
    (accessInReset a s).pending = s.pending := by
  cases a with
  | read addr => rfl
  | write addr v => rfl

theorem hostAccess_answers (a : Access) (s : State) :
    ∃ t, hostAccess a s = .next t ∧ t.pending = s.pending := by
  cases a with
  | read addr => exact ⟨_, rfl, answer_pending s _⟩
  | write addr v =>
    obtain ⟨t, ht, -, -, hpending, -⟩ := memWrite_answers addr v s
    exact ⟨t, ht, hpending⟩

/-- RST or a host access, whatever the level of RST: the event is answered and takes no other with it
(R70, R180). -/
theorem handleEvent_answers (e : Event) (s : State) :
    ∃ t, handleEvent e s = .next t ∧ t.pending = s.pending := by
  cases e with
  | rst asserted =>
    cases asserted with
    | true => exact ⟨assertRst s, rfl, rfl⟩
    | false => exact ⟨releaseRst s, rfl, rfl⟩
  | host a =>
    by_cases hr : s.rst = true
    · exact ⟨accessInReset a s, if_pos hr, accessInReset_pending a s⟩
    · obtain ⟨t, ht, hpending⟩ := hostAccess_answers a s
      exact ⟨t, (if_neg hr).trans ht, hpending⟩

/-- Settles O8: an idle step holds the state, and every other handles the event it took. -/
theorem everyStepTakesOneEvent : Obligations.EveryStepTakesOneEvent := by
  intro s
  cases hp : s.pending with
  | nil => exact ⟨s, step_idle hp, hp⟩
  | cons e rest =>
    obtain ⟨t, ht, hpending⟩ := handleEvent_answers e (s.setPending rest)
    exact ⟨t, (step_event hp).trans ht, hpending⟩

/-! ## FLEN through its two bytes -/

theorem memRead_flenl (s : State) : memRead s 0x63 = lowByte s.flen := rfl

theorem memRead_flenh (s : State) : memRead s 0x64 = highByte s.flen := rfl

/-- Settles O39: FLEN is its two bytes joined, before either write and after it. -/
theorem flenIsLittleEndian : Obligations.FlenIsLittleEndian := by
  intro s v
  rw [memRead_flenl, memRead_flenh]
  refine ⟨?_, ⟨_, rfl, joinBytes_toNat (highByte s.flen) v⟩,
    ⟨_, rfl, joinBytes_toNat v (lowByte s.flen)⟩⟩
  rw [← joinBytes_toNat, joinBytes_high_low]

end Sys2Proof.Machine
end

section
/-! PROOFS. What a packed frame holds, in both shapes: the named field behind every byte (R91, R92, R120). -/

namespace Sys2Proof.Machine

@[simp] theorem frameImage_beginCommand (sh : Shape) (c : Byte) (s : State) :
    frameImage sh (beginCommand c s) = frameImage sh s := rfl

/-- A slave message's field bytes are the four named registers (R92). -/
theorem fieldBytes_S (s : State) :
    fieldBytes .S s = [toReg s, fromReg s, inputsReg s, outputsReg s] := by
  simp [fieldBytes, List.take_add_one, toReg, fromReg, inputsReg, outputsReg]

/-- A slave message is the four registers and CHK (R92). -/
theorem frameImage_S (s : State) :
    frameImage .S s = [toReg s, fromReg s, inputsReg s, outputsReg s, chkReg s] := by
  simp [frameImage, fieldBytes_S]

/-- Byte `4 + 20*k + j` of a master message is byte `j` of line slot `k` (R91). -/
theorem frameImage_M_line (s : State) (k : Fin 4) (j : Fin 20) :
    (frameImage .M s)[4 + 20 * k.val + j.val]? = some (lineReg k j s) := by
  have hline : 4 + 20 * k.val + j.val < frameFields .M := by
    rw [frameFields_M]
    omega
  rw [frameImage_getElem?, dif_pos hline, lineReg]

/-- PACK's first cells are the shape's field registers (R121, R122). -/
theorem packBody_cell_of_lt {sh : Shape} {i : Nat} (s : State) (hi : i < frameFields sh) :
    (packBody sh s).fbuf[i]'(Nat.lt_trans hi (frameFields_lt sh)) =
      s.f[i]'(Nat.lt_trans hi (frameFields_lt sh)) := by
  rw [packBody_cell, if_pos hi]

/-- The frame that the command PACK leaves is the frame image of the registers it met (R120). -/
theorem frameBytes_packBody_beginCommand (sh : Shape) (c : Byte) (s : State) :
    frameBytes sh (packBody sh (beginCommand c s)) = frameImage sh s := by
  rw [frameBytes_packBody, frameImage_beginCommand]

/-- Settles O17: PACK's frame is the frame image, whose bytes have names: the message's four, the line
slots', and CHK in the frame's last cell. -/
theorem packedFrameLayout : Obligations.PackedFrameLayout := by
  intro s
  have himage := fun sh => frameBytes_packBody_beginCommand sh (encode (.pack sh)) s
  refine ⟨⟨_, exec_pack .M s, frameBytes_length .M _, himage .M, packBody_cell_of_lt _ (by decide),
    packBody_cell_of_lt _ (by decide), packBody_cell_of_lt _ (by decide),
    packBody_cell_of_lt _ (by decide), fun k j => ?_, rxCheck_packBody .M _⟩,
    ⟨_, exec_pack .S s, ?_, himage .S⟩⟩
  · rw [himage, frameImage_M_line]
  · rw [himage, frameImage_S]

end Sys2Proof.Machine
end

section
/-! PROOFS. Command bytes: a byte against its fields, the twelve legal bytes, and the 244 illegal ones (R97 to R102). -/

namespace Sys2Proof.Machine

open Sys2Proof.Claims

/-! ## A byte and its fields -/

/-- Cutting the byte put together from three fields gives the fields back (R97). -/
theorem ofByte_toByte (w : CmdWord) : CmdWord.ofByte w.toByte = w := by
  obtain ⟨rsv, sh, op⟩ := w
  rw [CmdWord.ofByte, CmdWord.toByte, CmdWord.mk.injEq]
  refine ⟨?_, ?_, BitVec.extractLsb'_append_eq_right⟩
  · rw [BitVec.extractLsb'_append_eq_of_le (by decide)]
    exact BitVec.extractLsb'_append_eq_left
  · rw [BitVec.extractLsb'_append_eq_of_le (by decide)]
    exact BitVec.extractLsb'_append_eq_right

theorem ofByte_injective : Function.Injective CmdWord.ofByte :=
  Function.LeftInverse.injective toByte_ofByte

@[simp] theorem decode_toByte (w : CmdWord) : decode w.toByte = w.decode := by
  rw [decode, ofByte_toByte]

/-- The shape a command byte selects, by its bit 3 (R97). -/
theorem shapeOfByte_eq_ite (c : Byte) : shapeOfByte c = if c.getLsbD 3 then .S else .M := by
  rw [BitVec.getLsbD_eq_extractLsb', shapeOfByte, shapeOfBit, CmdWord.ofByte]
  obtain h | h := BitVec.eq_zero_or_eq_one (c.extractLsb' 3 1) <;> simp [h]

/-! ## The twelve legal bytes -/

/-- The commands in the order of their bytes (R100). -/
def allInstrs : List Instr :=
  [.nop, .packM, .sealM, .unpackM, .verifyM, .recvM, .rxclr, .packS, .sealS, .unpackS, .verifyS,
    .recvS]

theorem mem_allInstrs (i : Instr) : i ∈ allInstrs := by cases i <;> decide

theorem instr_wellFormed (i : Instr) : i.wellFormed = true := by cases i <;> rfl

theorem decode_eq_legal_iff {c : Byte} {i : Instr} : decode c = .legal i ↔ c = encode i :=
  ⟨eq_encode_of_decode, fun h => h ▸ decode_encode i⟩

/-- The legal bytes are the bytes of the commands. -/
theorem exists_decode_eq_legal_iff (c : Byte) :
    (∃ i, decode c = .legal i) ↔ c ∈ allInstrs.map encode := by
  simp [decode_eq_legal_iff, mem_allInstrs, eq_comm]

/-- Settles O1: decoding inverts encoding, and the fields that decode to a command are its own. -/
theorem encodeIsTheOnlyByteOfACommand : Obligations.EncodeIsTheOnlyByteOfACommand := fun i =>
  ⟨instr_wellFormed i, decode_encode i, fun _ => eq_encode_of_decode⟩

/-- Settles O2: each named byte is its command's own, and a legal byte is the byte of some command. -/
theorem opcodeMapHasTwelveBytes : Obligations.OpcodeMapHasTwelveBytes :=
  ⟨decode_encode .nop, decode_encode .packM, decode_encode .sealM, decode_encode .unpackM,
    decode_encode .verifyM, decode_encode .recvM, decode_encode .rxclr, decode_encode .packS,
    decode_encode .sealS, decode_encode .unpackS, decode_encode .verifyS, decode_encode .recvS,
    exists_decode_eq_legal_iff⟩

/-- Settles O3: the byte of the fields decodes as the fields do, in each shape. -/
theorem opFieldNamesTheOperation : Obligations.OpFieldNamesTheOperation := by
  unfold Obligations.OpFieldNamesTheOperation
  simp only [decode_toByte]
  refine ⟨fun sh => ?_, rfl, rfl, nofun, nofun⟩
  cases sh with
  | M => exact ⟨rfl, rfl, rfl, rfl, rfl, nofun⟩
  | S => exact ⟨rfl, rfl, rfl, rfl, rfl, nofun⟩

/-! ## The illegal bytes -/

theorem illegalByte_iff_exists (c : Byte) :
    illegalByte c = true ↔ ∃ why, decode c = .illegal why := by
  cases hd : decode c <;> simp [illegalByte, hd]

/-- The fields that name no command: RSV set, OP reserved, or a shape on NOP or RXCLR (R101). -/
theorem illegalByte_toByte_iff (w : CmdWord) :
    illegalByte w.toByte = true ↔
      w.rsv ≠ 0 ∨ w.op = 7#3 ∨ w = ⟨0, 1, 0b000⟩ ∨ w = ⟨0, 1, 0b110⟩ := by
  obtain ⟨rsv, sh, op⟩ := w
  by_cases hr : rsv = 0#4
  · subst hr
    revert sh op
    decide
  · simp [illegalByte, CmdWord.decode, hr]

/-- The illegal bytes (R101); `0x08` and `0x0E` are NOP and RXCLR with `SH = 1`. -/
theorem illegalByte_iff (c : Byte) :
    illegalByte c = true ↔
      c.extractLsb' 4 4 ≠ 0 ∨ c.extractLsb' 0 3 = 7#3 ∨ c = 0x08 ∨ c = 0x0E := by
  have hfields := illegalByte_toByte_iff (CmdWord.ofByte c)
  rw [toByte_ofByte] at hfields
  rw [hfields, ← ofByte_injective.eq_iff (b := 0x08), ← ofByte_injective.eq_iff (b := 0x0E)]
  rfl

/-- R101's count, over all 256 bytes. -/
theorem illegalByte_count :
    ((List.range 256).filter fun n => illegalByte (BitVec.ofNat 8 n)).length = 244 := by
  decide +kernel

/-- Settles O4: which bytes are illegal, how many, and ILLEGAL's effect on each element of the state. -/
theorem illegalByteOnlyRecordsItself : Obligations.IllegalByteOnlyRecordsItself := by
  refine ⟨illegalByte_iff, illegalByte_count, fun c s hc => ?_⟩
  obtain ⟨why, hd⟩ := (illegalByte_iff_exists c).mp hc
  exact ⟨_, cmdWrite_illegal hd s, by simp [shapeOfByte_eq_ite, PortUnchanged]⟩

end Sys2Proof.Machine
end

section
/-! PROOFS. The accesses that a statement stands for (R103, R104). -/

namespace Sys2Proof.Machine

theorem fillAccesses_length (addr : Byte) (n : Nat) (v : Byte) :
    (fillAccesses addr n v).length = n := by simp [fillAccesses]

theorem fillAccesses_getElem? (addr : Byte) {n i : Nat} (v : Byte) (h : i < n) :
    (fillAccesses addr n v)[i]? = some (.write (addr + BitVec.ofNat 8 i) v) := by
  simp [fillAccesses, h]

/-- Inside the register space an address offset is the sum of the numbers. -/
theorem toNat_add_ofNat_of_lt {addr : Byte} {i : Nat} (h : addr.toNat + i < 256) :
    (addr + BitVec.ofNat 8 i).toNat = addr.toNat + i := by
  rw [BitVec.toNat_add, BitVec.toNat_ofNat]
  omega

/-- Settles O56: the expansions are the model's own but for FILL, whose addresses do not wrap. -/
theorem statementExpansions : Obligations.StatementExpansions := by
  refine ⟨fun _ _ => rfl, fun _ => rfl, fun _ => rfl, fun _ => rfl, fun _ => rfl, fun _ _ => rfl,
    fun a n v hwf => ⟨fillAccesses_length a n v, fun i hi => ?_⟩, fun _ => rfl, fun _ => rfl, rfl⟩
  have hbound : a.toNat + n ≤ 256 := of_decide_eq_true hwf
  exact ⟨_, toNat_add_ofNat_of_lt (by omega), fillAccesses_getElem? a v hi⟩

end Sys2Proof.Machine
end

section
/-! PROOFS. The codec: what PACK and UNPACK leave in each shape, and how each undoes the other (R121 to R127). -/

namespace Sys2Proof.Machine

open Sys2Proof.Claims

section codec
variable (sh : Shape) (s : State)

/-! ## Loaded registers -/

@[simp] theorem loadFields_beginCommand_f (c : Byte) :
    (loadFields sh (beginCommand c s)).f = (loadFields sh s).f := rfl

/-- Loading fills the shape's registers from the frame's first cells (R123, R124). -/
theorem loadFields_f_of_lt {i : Nat} (hi : i < frameFields sh) :
    (loadFields sh s).f[i]'(Nat.lt_trans hi (frameFields_lt sh)) =
      s.fbuf[i]'(Nat.lt_trans hi (frameFields_lt sh)) := by
  have := frameFields_lt sh
  rw [loadFields_cell, if_neg (by omega), if_pos hi]

/-- Loading fills CHK from the frame's last cell (R123, R124). -/
theorem loadFields_f_chk : (loadFields sh s).f[84] = rxCheck sh s := by
  rw [loadFields_cell, if_pos rfl]

/-- A master message fills the whole bank (R123). -/
theorem loadFields_M_f : (loadFields .M s).f = s.fbuf := by
  apply Vector.ext
  intro i hi
  by_cases h : i < frameFields .M
  · rw [loadFields_f_of_lt .M s h]
  · obtain rfl : i = 84 := by rw [frameFields_M] at h; omega
    exact loadFields_f_chk .M s

/-! ## PACK and the loading of fields undo each other -/

/-- What PACK stored is loaded back as the registers held it, and LINE was never touched (R125). -/
theorem loadFields_packBody_f : (loadFields sh (packBody sh s)).f = s.f := by
  apply Vector.ext
  intro i hi
  by_cases hc : i = 84
  · subst hc
    rw [loadFields_f_chk, rxCheck_packBody, chkReg]
  · by_cases h : i < frameFields sh
    · rw [loadFields_f_of_lt sh _ h, packBody_cell_of_lt s h]
    · rw [loadFields_f_beyond sh _ i hi (Nat.le_of_not_lt h) hc, packBody_f]

@[simp] theorem frameImage_complete : frameImage sh (complete s) = frameImage sh s := rfl

@[simp] theorem frameBytes_beginCommand (c : Byte) :
    frameBytes sh (beginCommand c s) = frameBytes sh s := rfl

/-- The frame image of loaded registers is the frame they were loaded from (R126). -/
theorem frameImage_loadFields : frameImage sh (loadFields sh s) = frameBytes sh s := by
  apply List.ext_getElem?
  intro i
  rw [frameImage_getElem?, frameBytes_getElem?]
  have hs := frameSize_eq sh
  obtain h | rfl | h := Nat.lt_trichotomy i (frameFields sh)
  · rw [dif_pos h, dif_pos (by omega), loadFields_f_of_lt sh s h]
  · rw [dif_neg (by omega), if_pos rfl, dif_pos (by omega), chkReg, loadFields_f_chk, rxCheck]
  · rw [dif_neg (by omega), if_neg (by omega), dif_neg (by omega)]

/-- The frame image tells every register of the shape (R126). -/
theorem sameFields_of_frameImage_eq {sh : Shape} {s s' : State}
    (h : frameImage sh s = frameImage sh s') : SameFields sh s s' := by
  have hbyte : ∀ i : Nat, (frameImage sh s')[i]? = (frameImage sh s)[i]? := fun i => by rw [h]
  simp only [frameImage_getElem?] at hbyte
  refine ⟨fun i hi => ?_, ?_⟩
  · simpa [hi] using hbyte i
  · simpa [chkReg] using hbyte (frameFields sh)

/-- As many bytes as the shape's frame has, stored in the buffer, are the frame (R33). -/
theorem frameBytes_storeBytes (v : Vector Byte 85) {bs : List Byte} (h : bs.length = frameSize sh) :
    frameBytes sh (s.setFbuf (storeBytes v bs)) = bs := by
  apply List.ext_getElem
  · rw [frameBytes_length, h]
  · intro i hi hbs
    simp [frameBytes, hbs]

/-- A state that packs to the frame `bs`: reset, with the registers loaded from `bs` (R126). -/
def stateOfFrame (bs : List Byte) : State :=
  loadFields sh (State.reset.setFbuf (storeBytes State.reset.fbuf bs))

theorem frameImage_stateOfFrame {bs : List Byte} (h : bs.length = frameSize sh) :
    frameImage sh (stateOfFrame sh bs) = bs := by
  rw [stateOfFrame, frameImage_loadFields, frameBytes_storeBytes sh _ _ h]

end codec

/-! ## The outcomes of the commands -/

section outcomes
variable {sh : Shape} {s t : State}

/-- STATUS after a command of shape `sh` that ended with the result `r` (R36). -/
theorem statusByte_of_done {r : Result} (hdone : t.done = true) (hshape : t.shape = sh)
    (hres : t.result = r) : statusByte t = 0#4 ++ 1#1 ++ sh.bit ++ resultCode r := by
  rw [statusByte, hdone, hshape, hres]
  rfl

/-- The length check compares FLEN itself with `SIZE(sh)` (R182). -/
theorem flen_toNat_eq_frameSize_iff :
    s.flen.toNat = frameSize sh ↔ s.flen = BitVec.ofNat 16 (frameSize sh) := by
  rw [← BitVec.toNat_inj, frameSize_toNat]

/-- PACK's frame in the buffer, from its outcome (R120). -/
theorem exec_pack_frameBytes (h : exec (.pack sh) s = .next t) :
    frameBytes sh t = frameImage sh s := by
  obtain rfl := Host.Outcome.next.inj ((exec_pack sh s).symm.trans h)
  exact frameBytes_packBody_beginCommand sh _ s

/-- What PACK does beside the cells, in either shape (R121, R122). -/
theorem exec_pack_outcome (h : exec (.pack sh) s = .next t) :
    t.flen = BitVec.ofNat 16 (frameSize sh) ∧ t.result = .ok ∧ t.shape = sh ∧ t.done = true ∧
      statusByte t = 0#4 ++ 1#1 ++ sh.bit ++ resultCode .ok ∧ t.cmdlast = encode (.pack sh) ∧
      t.f = s.f ∧ t.calcReg = s.calcReg ∧ PortUnchanged s t := by
  have hport := exec_portUnchanged h
  obtain rfl := Host.Outcome.next.inj ((exec_pack sh s).symm.trans h)
  refine ⟨by simp, by simp, by simp, by simp, ?_, by simp, by simp, by simp, hport⟩
  exact statusByte_of_done (by simp) (by simp) (by simp)

/-- What UNPACK does whatever the frame's length, in either shape (R123, R124). -/
theorem exec_unpack_outcome (h : exec (.unpack sh) s = .next t) :
    t.shape = sh ∧ t.done = true ∧ t.cmdlast = encode (.unpack sh) ∧ t.fbuf = s.fbuf ∧
      t.flen = s.flen ∧ t.calcReg = s.calcReg ∧ PortUnchanged s t := by
  obtain ⟨hcmd, hdone, hshape⟩ := exec_prologue h
  have hport := exec_portUnchanged h
  have hnop : Instr.unpack sh ≠ .nop := by cases sh <;> decide
  rw [if_neg hnop, shapeOfByte_unpack] at hshape
  obtain rfl := Host.Outcome.next.inj ((exec_unpack sh s).symm.trans h)
  exact ⟨hshape, hdone, hcmd, by simp, by simp, by simp, hport⟩

/-- UNPACK of a frame of the shape's length loads it, unchecked (R123, R124). -/
theorem exec_unpack_loads (h : exec (.unpack sh) s = .next t)
    (hlen : s.flen = BitVec.ofNat 16 (frameSize sh)) :
    t.f = (loadFields sh s).f ∧ t.result = .ok ∧
      statusByte t = 0#4 ++ 1#1 ++ sh.bit ++ resultCode .ok := by
  obtain ⟨hshape, hdone, -⟩ := exec_unpack_outcome h
  obtain rfl := Host.Outcome.next.inj
    ((exec_unpack_ok (flen_toNat_eq_frameSize_iff.mpr hlen)).symm.trans h)
  exact ⟨by simp, by simp, statusByte_of_done hdone hshape (by simp)⟩

/-- UNPACK of any other length changes no register and reports FRAMING_ERROR (R182). -/
theorem exec_unpack_rejects (h : exec (.unpack sh) s = .next t)
    (hlen : s.flen ≠ BitVec.ofNat 16 (frameSize sh)) :
    t.f = s.f ∧ t.result = .framingError ∧
      statusByte t = 0#4 ++ 1#1 ++ sh.bit ++ resultCode .framingError := by
  obtain ⟨hshape, hdone, -⟩ := exec_unpack_outcome h
  obtain rfl := Host.Outcome.next.inj
    ((exec_unpack_framing (mt flen_toNat_eq_frameSize_iff.mp hlen)).symm.trans h)
  exact ⟨by simp, by simp, statusByte_of_done hdone hshape (by simp)⟩

theorem exec_unpack_ok_length (h : exec (.unpack sh) s = .next t) (hok : t.result = .ok) :
    s.flen = BitVec.ofNat 16 (frameSize sh) := by
  by_contra hlen
  obtain ⟨-, hres, -⟩ := exec_unpack_rejects h hlen
  exact absurd (hok.symm.trans hres) (by decide)

end outcomes

/-! ## The statements -/

/-- Settles O18: PACK sets the length UNPACK asks for, and the loading undoes the storing. -/
theorem unpackAfterPackRestoresFields : Obligations.UnpackAfterPackRestoresFields := by
  intro sh s
  refine ⟨_, _, exec_pack sh s, exec_unpack_ok (packBody_flen_toNat sh _), ?_, complete_result _⟩
  rw [complete_f, loadFields_beginCommand_f, loadFields_packBody_f, beginCommand_f]

/-- Settles O19: PACK's frame is the frame image, which gives the loaded frame back, tells the
registers, and takes every value. -/
theorem packAfterUnpackRestoresFrame : Obligations.PackAfterUnpackRestoresFrame := by
  intro sh
  refine ⟨fun s t h hok => ?_, fun s s' t t' h h' heq => ?_, fun bs hbs => ?_⟩
  · have hlen := exec_unpack_ok_length h hok
    obtain rfl := Host.Outcome.next.inj
      ((exec_unpack_ok (flen_toNat_eq_frameSize_iff.mpr hlen)).symm.trans h)
    have hpack := exec_pack sh (complete (loadFields sh (beginCommand (encode (.unpack sh)) s)))
    refine ⟨_, hpack, ?_, by rw [packBody_flen, hlen]⟩
    rw [exec_pack_frameBytes hpack, frameImage_complete, frameImage_loadFields,
      frameBytes_beginCommand]
  · rw [exec_pack_frameBytes h, exec_pack_frameBytes h'] at heq
    exact sameFields_of_frameImage_eq heq
  · have hpack := exec_pack sh (stateOfFrame sh bs)
    refine ⟨_, _, hpack, ?_⟩
    rw [exec_pack_frameBytes hpack, frameImage_stateOfFrame sh hbs]

/-- Settles O20: PACK has one outcome, and UNPACK loads its whole shape or, on a wrong length, nothing. -/
theorem packIsTotalUnpackAllOrNothing : Obligations.PackIsTotalUnpackAllOrNothing := by
  intro sh s
  have hunpack := exec_unpack sh s
  refine ⟨⟨_, exec_pack sh s, packBody_result _ sh, packBody_flen_toNat sh _⟩, _, hunpack, ?_⟩
  by_cases hlen : s.flen = BitVec.ofNat 16 (frameSize sh)
  · obtain ⟨hf, -⟩ := exec_unpack_loads hunpack hlen
    rw [hf]
    exact .inl ⟨fun i hi => loadFields_f_of_lt sh s hi, loadFields_f_chk sh s⟩
  · obtain ⟨hf, -⟩ := exec_unpack_rejects hunpack hlen
    exact .inr hf

/-- Settles O13: PACK.M's cells are the fields and, in the last one, CHK: the bank in order. -/
theorem packMSerialisesTheBank : Obligations.PackMSerialisesTheBank := by
  intro s
  have hexec := exec_pack .M s
  refine ⟨_, hexec, fun i => ?_, exec_pack_outcome hexec⟩
  by_cases hi : i.val < frameFields .M
  · exact packBody_cell_of_lt _ hi
  · obtain rfl : i = 84 := by rw [frameFields_M] at hi; omega
    exact rxCheck_packBody .M _

/-- Settles O14: PACK.S's cells are four fields and CHK, and the cells beyond are as they were. -/
theorem packSSerialisesFiveBytes : Obligations.PackSSerialisesFiveBytes := by
  intro s
  have hexec := exec_pack .S s
  refine ⟨_, hexec, fun i hi => packBody_cell_of_lt _ hi, rxCheck_packBody .S _, fun i hi => ?_,
    exec_pack_outcome hexec⟩
  rw [Fin.getElem_fin, packBody_cell, frameFields_S, if_neg (by omega), if_neg (by omega)]
  rfl

/-- Settles O15: a loaded master message is the buffer itself. -/
theorem unpackMLoadsTheBankOrNothing : Obligations.UnpackMLoadsTheBankOrNothing := by
  intro s
  have hexec := exec_unpack .M s
  refine ⟨_, hexec, fun hlen => ?_, exec_unpack_rejects hexec, exec_unpack_outcome hexec⟩
  obtain ⟨hf, hstatus⟩ := exec_unpack_loads hexec hlen
  rw [hf, loadFields_M_f]
  exact ⟨fun _ => rfl, hstatus⟩

/-- Settles O16: a loaded slave message is four fields and CHK, and no outcome reaches LINE. -/
theorem unpackSLoadsFiveBytesOrNothing : Obligations.UnpackSLoadsFiveBytesOrNothing := by
  intro s
  have hexec := exec_unpack .S s
  refine ⟨_, hexec, fun hlen => ?_, exec_unpack_rejects hexec, fun i h4 h53 => ?_,
    exec_unpack_outcome hexec⟩
  · obtain ⟨hf, hstatus⟩ := exec_unpack_loads hexec hlen
    rw [hf]
    exact ⟨fun i hi => loadFields_f_of_lt .S s hi, loadFields_f_chk .S s, hstatus⟩
  · exact unpackBody_f_beyond .S _ i i.isLt h4 (by omega)

end Sys2Proof.Machine
end

section
/-! PROOFS. The checksum functions: sums, exclusive or and the CRC as maps of byte sequences, and P2 of each (R140 to R142). -/

namespace Sys2Proof.Machine

/-! ## P2 -/

/-- Sequences that differ at one position are one sequence with two bytes in one place. -/
theorem DifferOnlyAt.exists_append {p : Nat} {s t : List Byte} (h : DifferOnlyAt p s t) :
    ∃ pre a b post, s = pre ++ a :: post ∧ t = pre ++ b :: post ∧ a ≠ b := by
  obtain ⟨hlen, hp, hne, hsame⟩ := h
  have hpt : p < t.length := hlen ▸ hp
  have hpre : t.take p = s.take p := by
    apply List.ext_getElem?
    intro q
    by_cases hq : q < p
    · rw [List.getElem?_take_of_lt hq, List.getElem?_take_of_lt hq, hsame q (by omega)]
    · rw [List.getElem?_take_eq_none (by omega), List.getElem?_take_eq_none (by omega)]
  have hpost : t.drop (p + 1) = s.drop (p + 1) := by
    apply List.ext_getElem?
    intro q
    rw [List.getElem?_drop, List.getElem?_drop, hsame _ (by omega)]
  refine ⟨s.take p, s[p], t[p], s.drop (p + 1), ?_, ?_, ?_⟩
  · rw [← List.drop_eq_getElem_cons, List.take_append_drop]
  · rw [← hpre, ← hpost, ← List.drop_eq_getElem_cons, List.take_append_drop]
  · simpa [hp, hpt] using hne

/-- A byte replaced in a sequence makes it differ in that place. -/
theorem differOnlyAt_set {l : List Byte} {p : Nat} (hp : p < l.length) {v : Byte} (hv : v ≠ l[p]) :
    DifferOnlyAt p l (l.set p v) := by
  refine ⟨List.length_set.symm, hp, ?_, fun q hq => ?_⟩
  · simpa [hp] using hv.symm
  · rw [List.getElem?_set_ne hq.symm]

/-- A function has P2 when the byte at any one place can be told from its value. -/
theorem detectsSingleByte_of_injective {c : List Byte → Byte}
    (h : ∀ pre post, Function.Injective fun a => c (pre ++ a :: post)) : DetectsSingleByte c := by
  intro s t p _ hdiffer
  obtain ⟨pre, a, b, post, rfl, rfl, hne⟩ := hdiffer.exists_append
  exact (h pre post).ne hne

/-! ## SUM8 -/

theorem sum8_toNat (s : List Byte) : (sum8 s).toNat = (s.map BitVec.toNat).sum % 256 := by
  induction s with
  | nil => rfl
  | cons b s ih => simp [sum8, ih]

/-- Replacing a byte changes SUM8 by the difference. -/
theorem sum8_set {l : List Byte} {p : Nat} (hp : p < l.length) (v : Byte) :
    sum8 (l.set p v) + l[p] = sum8 l + v := by
  induction l generalizing p with
  | nil => simp at hp
  | cons b l ih =>
    cases p with
    | zero =>
      rw [List.set_cons_zero, List.getElem_cons_zero, sum8, sum8]
      ac_rfl
    | succ p =>
      rw [List.set_cons_succ, List.getElem_cons_succ, sum8, sum8, BitVec.add_assoc,
        ih (Nat.lt_of_succ_lt_succ hp), BitVec.add_assoc]

/-- Two replaced bytes whose differences cancel leave SUM8 (R151). -/
theorem sum8_set_set {l : List Byte} {p q : Nat} (hp : p < l.length) (hq : q < l.length)
    (hpq : p ≠ q) {v w : Byte} (h : v + w = l[p] + l[q]) :
    sum8 ((l.set p v).set q w) = sum8 l := by
  have hfirst := sum8_set hp v
  have hsecond := sum8_set (l := l.set p v) (by simpa using hq) w
  rw [List.getElem_set_ne hpq] at hsecond
  linear_combination hfirst + hsecond + h

/-- Settles O31: SUM8 as a number, by induction on the sequence, gives the examples. -/
theorem sum8IsTheSumModulo256 : Obligations.Sum8IsTheSumModulo256 := by
  refine ⟨sum8_toNat, rfl, sum8_detectsSingleByte, rfl, ?_, by decide, ?_, by decide⟩
  · apply BitVec.eq_of_toNat_eq
    simp [sum8_toNat]
  · apply BitVec.eq_of_toNat_eq
    simp [sum8_toNat]

/-! ## XOR8 -/

theorem xor8_append (s t : List Byte) : xor8 (s ++ t) = xor8 s ^^^ xor8 t := by
  induction s with
  | nil => simp [xor8]
  | cons b s ih => rw [List.cons_append, xor8, xor8, ih, BitVec.xor_assoc]

theorem xor8_detectsSingleByte : DetectsSingleByte xor8 := by
  refine detectsSingleByte_of_injective fun pre post a b h => ?_
  simpa [xor8_append, xor8] using h

/-! ## CRC8 -/

/-- One bit is a shift, and the generator where bit 7 was set. -/
theorem crcBit_eq (c : Byte) : crcBit c = (c <<< 1) ^^^ if c.getLsbD 7 then 0x07 else 0#8 := by
  unfold crcBit
  split
  · rfl
  · rw [BitVec.xor_zero]

/-- Shifting and reducing by the generator is linear over exclusive or (R142). -/
theorem crcBit_xor (c d : Byte) : crcBit (c ^^^ d) = crcBit c ^^^ crcBit d := by
  have hreduce : ∀ x y : Bool, (if (x ^^ y) = true then 0x07 else 0#8) =
      (if x = true then 0x07 else 0#8) ^^^ if y = true then 0x07 else 0#8 := by decide
  rw [crcBit_eq, crcBit_eq, crcBit_eq, BitVec.getLsbD_xor, hreduce, BitVec.shiftLeft_xor_distrib]
  ac_rfl

theorem crcBit_eq_zero {c : Byte} (h : crcBit c = 0#8) : c = 0#8 := by
  revert c
  decide

/-- One bit loses nothing: the generator's lowest bit is set. -/
theorem crcBit_injective : Function.Injective crcBit := by
  intro c d h
  rw [← BitVec.xor_eq_zero_iff]
  apply crcBit_eq_zero
  rw [crcBit_xor, BitVec.xor_eq_zero_iff, h]

theorem crcBit_toNat (c : Byte) : (crcBit c).toNat =
    if c.getLsbD 7 then Nat.xor ((2 * c.toNat) % 256) 0x07 else (2 * c.toNat) % 256 := by
  have hshift : (c <<< 1).toNat = (2 * c.toNat) % 256 := by
    rw [BitVec.toNat_shiftLeft, Nat.shiftLeft_eq, Nat.mul_comm, pow_one]
  unfold crcBit
  split
  · rw [BitVec.toNat_xor, hshift]
    rfl
  · exact hshift

theorem crcBits_eq_iterate (n : Nat) : crcBits n = crcBit^[n] := by
  induction n with
  | zero => rfl
  | succ n ih =>
    funext c
    rw [crcBits, ih, Function.iterate_succ_apply]

theorem crcBits_injective (n : Nat) : Function.Injective (crcBits n) := by
  rw [crcBits_eq_iterate]
  exact crcBit_injective.iterate n

theorem crcBits_xor (n : Nat) (c d : Byte) :
    crcBits n (c ^^^ d) = crcBits n c ^^^ crcBits n d := by
  induction n generalizing c d with
  | zero => rfl
  | succ n ih => rw [crcBits, crcBit_xor, ih, crcBits, crcBits]

theorem crcFrom_append (c : Byte) (s t : List Byte) :
    crcFrom c (s ++ t) = crcFrom (crcFrom c s) t := by
  induction s generalizing c with
  | nil => rfl
  | cons b s ih => exact ih _

/-- The bytes to come keep running values apart. -/
theorem crcFrom_injective (s : List Byte) : Function.Injective fun c => crcFrom c s := by
  induction s with
  | nil => exact Function.injective_id
  | cons b s ih => exact ih.comp ((crcBits_injective 8).comp fun _ _ => (BitVec.xor_left_inj b).mp)

theorem crc8_detectsSingleByte : DetectsSingleByte crc8 := by
  refine detectsSingleByte_of_injective fun pre post a b h => ?_
  simp only [crc8, crcFrom_append, crcFrom] at h
  have h := crcBits_injective 8 (crcFrom_injective post h)
  exact (BitVec.xor_right_inj _).mp h

/-- Appending a byte to a sequence: the byte brought in, then eight bits (R142). -/
theorem crc8_concat (s : List Byte) (b : Byte) : crc8 (s ++ [b]) = crcBits 8 (crc8 s ^^^ b) :=
  crcFrom_append 0x00 s [b]

/-- The CRC is linear over exclusive or, running value and sequence together. -/
theorem crcFrom_xor (c d : Byte) {s t : List Byte} (h : s.length = t.length) :
    crcFrom (c ^^^ d) (List.zipWith (· ^^^ ·) s t) = crcFrom c s ^^^ crcFrom d t := by
  induction s generalizing c d t with
  | nil =>
    obtain rfl : t = [] := List.eq_nil_of_length_eq_zero h.symm
    rfl
  | cons a s ih =>
    obtain ⟨b, t, rfl⟩ := List.exists_cons_of_length_eq_add_one h.symm
    have hbytes : c ^^^ d ^^^ (a ^^^ b) = c ^^^ a ^^^ (d ^^^ b) := by ac_rfl
    rw [List.zipWith_cons_cons, crcFrom, hbytes, crcBits_xor]
    exact ih _ _ (Nat.succ.inj h)

/-- Settles O32: P2 and the two recurrences. -/
theorem xor8AndCrc8DetectSingleBytes : Obligations.Xor8AndCrc8DetectSingleBytes := by
  refine ⟨xor8_detectsSingleByte, crc8_detectsSingleByte, rfl, fun s b => ?_, rfl, fun s b => ?_,
    crcBit_toNat, by decide +kernel⟩
  · simp [xor8_append, xor8]
  · rw [crc8_concat, crcBits_eq_iterate]

/-- Settles O33: a sequence's CRC appended to it meets itself, and zero stays zero. -/
theorem crc8IsLinearAndSelfChecking : Obligations.Crc8IsLinearAndSelfChecking := by
  refine ⟨fun s => ?_, fun s t h => crcFrom_xor 0x00 0x00 h⟩
  rw [crc8_concat, BitVec.xor_self]
  rfl

/-! ## The parameter CSUM_ALG -/

/-- Settles O60: the three named functions, and the uninterpreted ones by their type. -/
theorem everyChecksumDetectsSingleBytes : Obligations.EveryChecksumDetectsSingleBytes
  | .sum8 => sum8_detectsSingleByte
  | .xor8 => xor8_detectsSingleByte
  | .crc8 => crc8_detectsSingleByte
  | .other n => csum_other_detectsSingleByte n

end Sys2Proof.Machine
end

section
/-! PROOFS. The Integrity Guard: the verdict on a frame, and what SEAL, VERIFY and RECV leave in each shape (R143 to R152). -/

namespace Sys2Proof.Machine

open Sys2Proof.Claims

/-! ## The received frame -/

section frame
variable (sh : Shape) (s : State)

/-- The frame in the buffer is the received bytes and the received checksum (R17). -/
theorem frameBytes_eq_append : frameBytes sh s = rxBytes sh s ++ [rxCheck sh s] := by
  have hlt : frameFields sh < s.fbuf.toList.length := by simpa using frameFields_lt sh
  rw [frameBytes, frameSize_eq, List.take_succ_eq_append_getElem hlt]
  simp [rxBytes, rxCheck]

/-- A received slave message's bytes are the first four cells (R147). -/
theorem rxBytes_S : rxBytes .S s = [s.fbuf[0], s.fbuf[1], s.fbuf[2], s.fbuf[3]] := by
  simp [rxBytes, List.take_add_one]

@[simp] theorem State.setFbuf_self : s.setFbuf s.fbuf = s := rfl

section set
variable (b : Vector Byte 85) {p : Nat} (v : Byte)

/-- A byte written into a bank is written into the received bytes, if it lies there. -/
theorem rxBytes_setFbuf_set (hp : p < 85) :
    rxBytes sh (s.setFbuf (b.set p v)) = (rxBytes sh (s.setFbuf b)).set p v := by
  rw [rxBytes, State.setFbuf_fbuf, Vector.toList_set, List.take_set]
  rfl

/-- A byte written among the received bytes leaves the received checksum. -/
theorem rxCheck_setFbuf_set_of_lt (hp : p < frameFields sh) :
    rxCheck sh (s.setFbuf (b.set p v (Nat.lt_trans hp (frameFields_lt sh)))) =
      rxCheck sh (s.setFbuf b) :=
  Vector.getElem_set_ne (Nat.lt_trans hp (frameFields_lt sh)) (frameFields_lt sh) hp.ne

theorem rxCheck_setFbuf_set_self :
    rxCheck sh (s.setFbuf (b.set (frameFields sh) v (frameFields_lt sh))) = v :=
  Vector.getElem_set_self _

end set

end frame

/-! ## The verdict -/

/-- What the checks of VERIFY and RECV say of the frame in the buffer: the length first, then the
checksum (R182, R183, R186). -/
def verdict (sh : Shape) (s : State) : Result :=
  if s.flen.toNat ≠ frameSize sh then .framingError
  else if rxCsum sh s ≠ rxCheck sh s then .corruptFrame
  else .ok

section verdict
variable {sh : Shape} {s s' t : State} {i : Instr}

theorem verdict_of_length_ne (h : s.flen.toNat ≠ frameSize sh) : verdict sh s = .framingError :=
  if_pos h

theorem verdict_of_csum_ne (h : s.flen.toNat = frameSize sh) (hc : rxCsum sh s ≠ rxCheck sh s) :
    verdict sh s = .corruptFrame := by
  rw [verdict, if_neg (not_not.mpr h), if_pos hc]

theorem verdict_of_validFrame (h : ValidFrame sh s) : verdict sh s = .ok := by
  obtain ⟨hlen, hc⟩ := h
  rw [verdict, if_neg (not_not.mpr hlen), if_neg (not_not.mpr hc)]

theorem verdict_eq_ok_iff : verdict sh s = .ok ↔ ValidFrame sh s := by
  refine ⟨fun hok => ?_, verdict_of_validFrame⟩
  by_contra hinvalid
  by_cases hlen : s.flen.toNat = frameSize sh
  · rw [verdict_of_csum_ne hlen fun hc => hinvalid ⟨hlen, hc⟩] at hok
    cases hok
  · rw [verdict_of_length_ne hlen] at hok
    cases hok

/-- The verdict is a function of CSUM_ALG, FLEN and the frame's bytes (R152), and so is the checksum
recomputed for it. -/
theorem rxCsum_and_verdict_congr (hcfg : s.cfg.csumAlg = s'.cfg.csumAlg) (hlen : s.flen = s'.flen)
    (hframe : frameBytes sh s = frameBytes sh s') :
    rxCsum sh s = rxCsum sh s' ∧ verdict sh s = verdict sh s' := by
  rw [frameBytes_eq_append, frameBytes_eq_append] at hframe
  obtain ⟨hbytes, hcheck⟩ := List.append_inj' hframe rfl
  have hcsum : rxCsum sh s = rxCsum sh s' := by rw [rxCsum, rxCsum, hcfg, hbytes]
  rw [verdict, verdict, hcsum, hlen, List.singleton_inj.mp hcheck]
  exact ⟨rfl, rfl⟩

/-- The two checks end with the verdict, where the command's rest reports no error. -/
theorem checkLength_checkCsum_result {rest : State → State} (hrest : ∀ s, (rest s).result = .ok) :
    (checkLength sh (checkCsum sh rest) s).result = verdict sh s := by
  by_cases hlen : s.flen.toNat = frameSize sh
  · rw [checkLength_of_eq _ hlen]
    by_cases hc : rxCsum sh s = rxCheck sh s
    · rw [checkCsum_of_eq _ hc, hrest, verdict_of_validFrame ⟨hlen, hc⟩]
    · rw [checkCsum_of_ne _ hc, raise_result, verdict_of_csum_ne hlen hc]
  · rw [checkLength_of_ne _ hlen, raise_result, verdict_of_length_ne hlen]

@[simp] theorem verifyBody_result : (verifyBody sh s).result = verdict sh s :=
  checkLength_checkCsum_result fun _ => rfl

@[simp] theorem recvBody_result : (recvBody sh s).result = verdict sh s :=
  checkLength_checkCsum_result fun _ => rfl

@[simp] theorem verdict_beginCommand (c : Byte) : verdict sh (beginCommand c s) = verdict sh s := rfl

end verdict

/-! ## The outcomes of the commands -/

section outcomes
variable {sh : Shape} {s t : State} {i : Instr}

/-- What SEAL does, in either shape (R144, R145). -/
theorem exec_seal_outcome (h : exec (.seal sh) s = .next t) :
    t.f[84] = fieldCsum sh s ∧ t.calcReg = fieldCsum sh s ∧
      (∀ i : Fin 85, i.val < 84 → t.f[i] = s.f[i]) ∧ t.result = .ok ∧ t.shape = sh ∧
      t.done = true ∧ statusByte t = 0#4 ++ 1#1 ++ sh.bit ++ resultCode .ok ∧
      t.cmdlast = encode (.seal sh) ∧ t.fbuf = s.fbuf ∧ t.flen = s.flen ∧ PortUnchanged s t := by
  have hport := exec_portUnchanged h
  obtain rfl := Host.Outcome.next.inj ((exec_seal sh s).symm.trans h)
  refine ⟨by simp, by simp, fun i hi => ?_, by simp, by simp, by simp, ?_, by simp, by simp, by simp,
    hport⟩
  · rw [sealBody_f]
    exact Vector.getElem_set_ne _ _ hi.ne'
  · exact statusByte_of_done (by simp) (by simp) (by simp)

/-- VERIFY and RECV report the verdict (R146 to R149). -/
theorem exec_checksCsum_result (hi : ChecksCsum sh i) (h : exec i s = .next t) :
    t.result = verdict sh s := by
  obtain rfl | rfl := hi
  · obtain rfl := Host.Outcome.next.inj ((exec_verify sh s).symm.trans h)
    simp
  · obtain rfl := Host.Outcome.next.inj ((exec_recv sh s).symm.trans h)
    simp

/-- VERIFY and RECV are commands with a shape, their own (R97, R98). -/
theorem shapeOfByte_of_checksCsum (hi : ChecksCsum sh i) :
    i ≠ .nop ∧ shapeOfByte (encode i) = sh := by
  obtain rfl | rfl := hi
  · exact ⟨by cases sh <;> decide, shapeOfByte_verify sh⟩
  · exact ⟨by cases sh <;> decide, shapeOfByte_recv sh⟩

/-- What VERIFY and RECV do whatever the verdict: the prologue, and no write of the buffer. -/
theorem exec_checksCsum_outcome (hi : ChecksCsum sh i) (h : exec i s = .next t) :
    t.shape = sh ∧ t.done = true ∧ t.cmdlast = encode i ∧ t.fbuf = s.fbuf ∧ t.flen = s.flen ∧
      PortUnchanged s t := by
  have hport := exec_portUnchanged h
  obtain ⟨hcmd, hdone, hshape⟩ := exec_prologue h
  obtain ⟨hnop, hbyte⟩ := shapeOfByte_of_checksCsum hi
  rw [if_neg hnop, hbyte] at hshape
  obtain rfl | rfl := hi
  · obtain rfl := Host.Outcome.next.inj ((exec_verify sh s).symm.trans h)
    exact ⟨hshape, hdone, hcmd, by simp, by simp, hport⟩
  · obtain rfl := Host.Outcome.next.inj ((exec_recv sh s).symm.trans h)
    exact ⟨hshape, hdone, hcmd, by simp, by simp, hport⟩

/-- The verdict as the host sees it, in RESULT and in STATUS (R36). -/
theorem exec_checksCsum_status {r : Result} (hi : ChecksCsum sh i) (h : exec i s = .next t)
    (hr : verdict sh s = r) :
    t.result = r ∧ statusByte t = 0#4 ++ 1#1 ++ sh.bit ++ resultCode r := by
  obtain ⟨hshape, hdone, -⟩ := exec_checksCsum_outcome hi h
  have hres := (exec_checksCsum_result hi h).trans hr
  exact ⟨hres, statusByte_of_done hdone hshape hres⟩

/-- VERIFY and RECV against the length and the checksum: CALC, RESULT and STATUS in each case
(R146 to R149). -/
theorem exec_checksCsum_reports (hi : ChecksCsum sh i) (h : exec i s = .next t) :
    (s.flen ≠ BitVec.ofNat 16 (frameSize sh) → t.calcReg = s.calcReg ∧ t.result = .framingError ∧
      statusByte t = 0#4 ++ 1#1 ++ sh.bit ++ resultCode .framingError) ∧
    (s.flen = BitVec.ofNat 16 (frameSize sh) → t.calcReg = rxCsum sh s) ∧
    (s.flen = BitVec.ofNat 16 (frameSize sh) → rxCsum sh s = rxCheck sh s →
      t.result = .ok ∧ statusByte t = 0#4 ++ 1#1 ++ sh.bit ++ resultCode .ok) ∧
    (s.flen = BitVec.ofNat 16 (frameSize sh) → rxCsum sh s ≠ rxCheck sh s →
      t.result = .corruptFrame ∧
        statusByte t = 0#4 ++ 1#1 ++ sh.bit ++ resultCode .corruptFrame) := by
  have hcalc := exec_checksCsum_calcReg hi h
  simp only [← flen_toNat_eq_frameSize_iff, ne_eq]
  refine ⟨fun hlen => ?_, fun hlen => ?_, fun hlen hc => ?_, fun hlen hc => ?_⟩
  · exact ⟨by rw [hcalc, if_neg hlen], exec_checksCsum_status hi h (verdict_of_length_ne hlen)⟩
  · rw [hcalc, if_pos hlen]
  · exact exec_checksCsum_status hi h (verdict_of_validFrame ⟨hlen, hc⟩)
  · exact exec_checksCsum_status hi h (verdict_of_csum_ne hlen hc)

theorem exec_verify_f (h : exec (.verify sh) s = .next t) : t.f = s.f := by
  obtain rfl := Host.Outcome.next.inj ((exec_verify sh s).symm.trans h)
  simp

/-- RECV of a valid frame loads it (R148, R149). -/
theorem exec_recv_loads (h : exec (.recv sh) s = .next t) (hvalid : ValidFrame sh s) :
    t.f = (loadFields sh s).f := by
  obtain ⟨hlen, hc⟩ := hvalid
  obtain rfl := Host.Outcome.next.inj ((exec_recv_ok hlen hc).symm.trans h)
  rfl

/-- RECV of any other frame changes no field register (R148, R149). -/
theorem exec_recv_keeps (h : exec (.recv sh) s = .next t) (hinvalid : ¬ValidFrame sh s) :
    t.f = s.f := by
  by_cases hlen : s.flen.toNat = frameSize sh
  · obtain rfl := Host.Outcome.next.inj
      ((exec_recv_corrupt hlen fun hc => hinvalid ⟨hlen, hc⟩).symm.trans h)
    rfl
  · obtain rfl := Host.Outcome.next.inj ((exec_recv_framing hlen).symm.trans h)
    rfl

/-- RECV against the length and the checksum: the field registers in each case (R148, R149). -/
theorem exec_recv_fields (h : exec (.recv sh) s = .next t) :
    (s.flen ≠ BitVec.ofNat 16 (frameSize sh) → t.f = s.f) ∧
    (s.flen = BitVec.ofNat 16 (frameSize sh) → rxCsum sh s = rxCheck sh s →
      t.f = (loadFields sh s).f) ∧
    (rxCsum sh s ≠ rxCheck sh s → t.f = s.f) := by
  simp only [← flen_toNat_eq_frameSize_iff, ne_eq]
  exact ⟨fun hlen => exec_recv_keeps h fun hvalid => hlen hvalid.left,
    fun hlen hc => exec_recv_loads h ⟨hlen, hc⟩,
    fun hc => exec_recv_keeps h fun hvalid => hc hvalid.right⟩

end outcomes

/-! ## The statements about one command -/

/-- The checksum of a received slave message is that of its first four cells (R147, R149). -/
theorem rxCsum_S (s : State) :
    rxCsum .S s = csum s.cfg.csumAlg [s.fbuf[0], s.fbuf[1], s.fbuf[2], s.fbuf[3]] := by
  rw [rxCsum, rxBytes_S]

/-- Settles O21: SEAL in shape M, whose fields are the first 84 registers. -/
theorem sealMAttachesTheChecksum : Obligations.SealMAttachesTheChecksum := fun s =>
  ⟨_, exec_seal .M s, exec_seal_outcome (exec_seal .M s)⟩

/-- Settles O22: SEAL in shape S, whose fields are the four named registers. -/
theorem sealSAttachesTheChecksum : Obligations.SealSAttachesTheChecksum := by
  intro s
  have hseal := exec_seal_outcome (exec_seal .S s)
  rw [fieldCsum, fieldBytes_S] at hseal
  exact ⟨_, exec_seal .S s, hseal⟩

/-- Settles O23: the verdict in shape M; VERIFY writes no field register. -/
theorem verifyMChecksLengthThenChecksum : Obligations.VerifyMChecksLengthThenChecksum := by
  intro s
  have hexec := exec_verify .M s
  obtain ⟨hlen, hcalc, hok, hbad⟩ := exec_checksCsum_reports (.inl rfl) hexec
  obtain ⟨hshape, hdone, hcmd, hrest⟩ := exec_checksCsum_outcome (.inl rfl) hexec
  exact ⟨_, hexec, hlen, hcalc, hok, hbad, hshape, hdone, hcmd, exec_verify_f hexec, hrest⟩

/-- Settles O24: the verdict in shape S, on the first five cells; VERIFY writes no field register. -/
theorem verifySChecksLengthThenChecksum : Obligations.VerifySChecksLengthThenChecksum := by
  intro s
  have hexec := exec_verify .S s
  obtain ⟨hlen, hcalc, hok, hbad⟩ := exec_checksCsum_reports (.inl rfl) hexec
  rw [rxCsum_S] at hcalc hok hbad
  obtain ⟨hshape, hdone, hcmd, hrest⟩ := exec_checksCsum_outcome (.inl rfl) hexec
  exact ⟨_, hexec, hlen, hcalc, hok, hbad, hshape, hdone, hcmd, exec_verify_f hexec, hrest⟩

/-- Settles O25: a loaded master message is the buffer itself, and its checksum is the one computed. -/
theorem recvMLoadsOnlyValidFrames : Obligations.RecvMLoadsOnlyValidFrames := by
  intro s
  have hexec := exec_recv .M s
  obtain ⟨hlen, hcalc, hok, hbad⟩ := exec_checksCsum_reports (.inr rfl) hexec
  obtain ⟨hshort, hload, hcorrupt⟩ := exec_recv_fields hexec
  refine ⟨_, hexec, fun hne => ⟨hshort hne, hlen hne⟩, hcalc, fun heq hc => ?_,
    fun heq hc => ⟨hcorrupt hc, hbad heq hc⟩, exec_checksCsum_outcome (.inr rfl) hexec⟩
  have hf := hload heq hc
  rw [loadFields_M_f] at hf
  rw [hcalc heq, hf]
  exact ⟨fun _ => rfl, hc.symm, hok heq hc⟩

/-- Settles O26: a loaded slave message is four fields and CHK, and no outcome reaches LINE. -/
theorem recvSLoadsOnlyValidFrames : Obligations.RecvSLoadsOnlyValidFrames := by
  intro s
  have hexec := exec_recv .S s
  obtain ⟨hlen, hcalc, hok, hbad⟩ := exec_checksCsum_reports (.inr rfl) hexec
  obtain ⟨hshort, hload, hcorrupt⟩ := exec_recv_fields hexec
  simp only [← rxCsum_S]
  refine ⟨_, hexec, fun hne => ⟨hshort hne, hlen hne⟩, hcalc, fun heq hc => ?_,
    fun heq hc => ⟨hcorrupt hc, hbad heq hc⟩, fun i h4 h53 => ?_,
    exec_checksCsum_outcome (.inr rfl) hexec⟩
  · rw [hload heq hc]
    exact ⟨fun i hi => loadFields_f_of_lt .S s hi, loadFields_f_chk .S s, hok heq hc⟩
  · exact recvBody_f_beyond .S _ i i.isLt h4 (by omega)

end Sys2Proof.Machine
end

section
/-! PROOFS. Sealed frames, verdicts and corruption: what SEAL and PACK prepare is accepted, the verdict reads the frame alone, and changed bytes are caught (R150 to R152). -/

namespace Sys2Proof.Machine

open Sys2Proof.Claims

/-! ## Sealed fields make valid frames -/

section sealed
variable {sh : Shape} {s t : State}

theorem frameImage_of_f_eq (h : t.f = s.f) : frameImage sh t = frameImage sh s := by
  simp only [frameImage, fieldBytes, chkReg, h]

/-- CHK is no field of either shape (R31). -/
theorem lt_chk_of_lt_frameFields {i : Nat} (h : i < frameFields sh) : i < 84 :=
  Nat.lt_of_lt_of_le h (Nat.le_of_lt_succ (frameFields_lt sh))

/-- SEAL leaves CHK outside the fields it computes the checksum of (R143). -/
theorem sealed_of_exec_seal (h : exec (.seal sh) s = .next t) : Sealed sh t := by
  obtain ⟨hchk, -, hf, -⟩ := exec_seal_outcome h
  obtain ⟨-, hcfg, -⟩ := exec_portUnchanged h
  have hfields : fieldBytes sh t = fieldBytes sh s :=
    fieldBytes_congr fun i hi hn => hf ⟨i, hi⟩ (lt_chk_of_lt_frameFields hn)
  rw [Sealed, chkReg, hchk, fieldCsum, fieldCsum, hfields, hcfg]

/-- The frame of sealed fields is valid (R150). -/
theorem validFrame_of_exec_pack (hs : Sealed sh s) (h : exec (.pack sh) s = .next t) :
    ValidFrame sh t := by
  obtain rfl := Host.Outcome.next.inj ((exec_pack sh s).symm.trans h)
  refine ⟨packBody_flen_toNat sh _, ?_⟩
  rw [rxCheck_packBody, chkReg_beginCommand, hs, rxCsum, rxBytes_packBody, packBody_cfg]
  rfl

/-- RECV loads a valid frame whole: the frame image of the registers is then the frame (R148, R149). -/
theorem frameImage_of_exec_recv (h : exec (.recv sh) s = .next t) (hvalid : ValidFrame sh s) :
    frameImage sh t = frameBytes sh s := by
  rw [frameImage_of_f_eq (exec_recv_loads h hvalid), frameImage_loadFields]

/-- RECV after PACK, where the frame is valid, changes no field register (R150). -/
theorem exec_recv_f_of_exec_pack {u : State} (hpack : exec (.pack sh) s = .next t)
    (hrecv : exec (.recv sh) t = .next u) (hvalid : ValidFrame sh t) : u.f = s.f := by
  rw [exec_recv_loads hrecv hvalid]
  obtain rfl := Host.Outcome.next.inj ((exec_pack sh s).symm.trans hpack)
  rw [loadFields_packBody_f, beginCommand_f]

end sealed

/-- Settles O27: SEAL seals, so PACK's frame is valid, and RECV loads back what PACK stored. -/
theorem sealedFramesAreAccepted : Obligations.SealedFramesAreAccepted := by
  intro sh s
  obtain ⟨t, hseal, -⟩ := exec_answers (.seal sh) s
  obtain ⟨u, hpack, -⟩ := exec_answers (.pack sh) t
  obtain ⟨v, hverify, -⟩ := exec_answers (.verify sh) u
  obtain ⟨w, hrecv, -⟩ := exec_answers (.recv sh) u
  have hvalid := validFrame_of_exec_pack (sealed_of_exec_seal hseal) hpack
  have hok := verdict_of_validFrame hvalid
  have hf := exec_recv_f_of_exec_pack hpack hrecv hvalid
  obtain ⟨-, -, hfields, -⟩ := exec_seal_outcome hseal
  refine ⟨t, u, v, w, hseal, hpack, hverify, ?_, hrecv, ?_, hf, fun i hi => ?_⟩
  · rw [exec_checksCsum_result (.inl rfl) hverify, hok]
  · rw [exec_checksCsum_result (.inr rfl) hrecv, hok]
  · rw [hf, hfields i hi]

/-! ## The verdict reads the frame alone -/

/-- Settles O29: equal frames have one verdict and one checksum, and loaded registers are the frame. -/
theorem verdictDependsOnTheFrameAlone : Obligations.VerdictDependsOnTheFrameAlone := by
  intro sh s s' hcfg hlen hframe
  obtain ⟨hcsum, hverdict⟩ := rxCsum_and_verdict_congr hcfg hlen hframe
  obtain ⟨t, ht, -⟩ := exec_answers (.verify sh) s
  obtain ⟨t', ht', -⟩ := exec_answers (.verify sh) s'
  obtain ⟨u, hu, -⟩ := exec_answers (.recv sh) s
  obtain ⟨u', hu', -⟩ := exec_answers (.recv sh) s'
  refine ⟨t, t', u, u', ht, ht', hu, hu', ?_⟩
  rw [exec_checksCsum_result (.inl rfl) ht, exec_checksCsum_result (.inl rfl) ht',
    exec_checksCsum_result (.inr rfl) hu, exec_checksCsum_result (.inr rfl) hu',
    exec_checksCsum_calcReg (.inl rfl) ht, exec_checksCsum_calcReg (.inl rfl) ht',
    exec_checksCsum_calcReg (.inr rfl) hu, exec_checksCsum_calcReg (.inr rfl) hu']
  refine ⟨hverdict, hverdict, rfl, fun hne => ?_, fun hok => ?_⟩
  · have hl : s.flen.toNat = frameSize sh := by
      by_contra hl
      exact hne (verdict_of_length_ne hl)
    rw [← hlen, if_pos hl, if_pos hl, hcsum]
    exact ⟨rfl, rfl⟩
  · apply sameFields_of_frameImage_eq
    rw [frameImage_of_exec_recv hu (verdict_eq_ok_iff.mp hok),
      frameImage_of_exec_recv hu' (verdict_eq_ok_iff.mp (hverdict ▸ hok)), hframe]

/-! ## Corruption -/

section corruption
variable {sh : Shape} {s t : State}

/-- A frame that VERIFY found valid is still there, and valid (R151). -/
theorem validFrame_of_exec_verify_ok (h : exec (.verify sh) s = .next t) (hok : t.result = .ok) :
    ValidFrame sh t := by
  obtain ⟨-, -, -, hfbuf, hflen, -⟩ := exec_checksCsum_outcome (.inl rfl) h
  obtain ⟨-, hcfg, -⟩ := exec_portUnchanged h
  have hframe : frameBytes sh t = frameBytes sh s := by rw [frameBytes, frameBytes, hfbuf]
  obtain ⟨-, hverdict⟩ := rxCsum_and_verdict_congr (by rw [hcfg]) hflen hframe
  rw [← verdict_eq_ok_iff, hverdict, ← exec_checksCsum_result (.inl rfl) h, hok]

/-- One changed byte of a valid frame, checksum included, makes the verdict CORRUPT_FRAME (R151). -/
theorem verdict_of_changed_byte (hp2 : DetectsSingleByte (csum s.cfg.csumAlg))
    (hvalid : ValidFrame sh s) {p : Nat} (hp : p < 85) (hin : p < frameSize sh) {v : Byte}
    (hv : v ≠ s.fbuf[p]) : verdict sh (s.setFbuf (s.fbuf.set p v)) = .corruptFrame := by
  obtain ⟨hlen, hcsum⟩ := hvalid
  refine verdict_of_csum_ne hlen ?_
  have hrx := rxBytes_length sh s
  rw [rxCsum, State.setFbuf_cfg, rxBytes_setFbuf_set, State.setFbuf_self]
  by_cases hlt : p < frameFields sh
  · have hv : v ≠ (rxBytes sh s)[p] := by rwa [rxBytes_getElem sh s p (hrx ▸ hlt) hp]
    have hsize : (rxBytes sh s).length = 4 ∨ (rxBytes sh s).length = 84 := by
      rw [hrx]
      cases sh
      · exact .inr rfl
      · exact .inl rfl
    rw [rxCheck_setFbuf_set_of_lt sh s _ _ hlt, State.setFbuf_self, ← hcsum]
    exact (hp2 _ _ p hsize (differOnlyAt_set (hrx ▸ hlt) hv)).symm
  · obtain rfl : p = frameFields sh := by rw [frameSize_eq] at hin; omega
    rw [List.set_eq_of_length_le hrx.le, rxCheck_setFbuf_set_self, ← rxCsum, hcsum]
    exact hv.symm

/-- Under SUM8 two changed bytes whose differences cancel leave the frame valid (R151). -/
theorem validFrame_of_cancelling_bytes (halg : s.cfg.csumAlg = .sum8) (hvalid : ValidFrame sh s)
    {p q : Nat} (hp : p < 85) (hq : q < 85) (hpf : p < frameFields sh) (hqf : q < frameFields sh)
    (hpq : p ≠ q) {v w : Byte} (h : v + w = s.fbuf[p] + s.fbuf[q]) :
    ValidFrame sh (s.setFbuf ((s.fbuf.set p v).set q w)) := by
  obtain ⟨hlen, hcsum⟩ := hvalid
  refine ⟨hlen, ?_⟩
  have hrx := rxBytes_length sh s
  have hbytes : v + w = (rxBytes sh s)[p] + (rxBytes sh s)[q] := by
    rwa [rxBytes_getElem sh s p (hrx ▸ hpf) hp, rxBytes_getElem sh s q (hrx ▸ hqf) hq]
  rw [rxCheck_setFbuf_set_of_lt _ _ _ _ hqf, rxCheck_setFbuf_set_of_lt _ _ _ _ hpf,
    State.setFbuf_self, ← hcsum, rxCsum, rxCsum, State.setFbuf_cfg, halg, rxBytes_setFbuf_set, rxBytes_setFbuf_set,
    State.setFbuf_self]
  exact sum8_set_set (hrx ▸ hpf) (hrx ▸ hqf) hpq hbytes

end corruption

/-- Settles O28: VERIFY leaves the valid frame, in which P2 tells one changed byte from none, and SUM8
does not tell two that cancel. -/
theorem singleByteCorruptionIsCaught : Obligations.SingleByteCorruptionIsCaught := by
  refine ⟨fun sh s t p v hp2 h hok hin hv => ?_, fun sh s t p q v w halg h hok hp hq hpq hvw => ?_⟩
  · obtain ⟨-, hcfg, -⟩ := exec_portUnchanged h
    have hcorrupt := verdict_of_changed_byte (hcfg ▸ hp2) (validFrame_of_exec_verify_ok h hok)
      p.isLt hin hv
    obtain ⟨u, hu, -⟩ := exec_answers (.verify sh) (t.setFbuf (t.fbuf.set p v))
    obtain ⟨w, hw, -⟩ := exec_answers (.recv sh) (t.setFbuf (t.fbuf.set p v))
    refine ⟨u, w, hu, ?_, hw, ?_⟩
    · rw [exec_checksCsum_result (.inl rfl) hu, hcorrupt]
    · rw [exec_checksCsum_result (.inr rfl) hw, hcorrupt]
  · obtain ⟨-, hcfg, -⟩ := exec_portUnchanged h
    have hvalid := validFrame_of_cancelling_bytes (hcfg ▸ halg) (validFrame_of_exec_verify_ok h hok)
      p.isLt q.isLt hp hq (Fin.val_ne_of_ne hpq) hvw
    obtain ⟨u, hu, -⟩ := exec_answers (.verify sh) (t.setFbuf ((t.fbuf.set p v).set q w))
    exact ⟨u, hu, by rw [exec_checksCsum_result (.inl rfl) hu, verdict_of_validFrame hvalid]⟩

end Sys2Proof.Machine
end

section
/-! PROOFS. A whole transfer: host programs as runs, LDFRAME, and the receiving machine (R103, R104, R161, R166, R202). -/

namespace Sys2Proof.Machine

open Sys2Proof.Claims

/-! ## Runs of host programs -/

/-- Runs compose: `m` steps that answer, then the others. -/
theorem run_add {M : Host.Core} {m n : Nat} {s t : M.State} (h : M.run m s = .next t) :
    M.run (m + n) s = M.run n t := by
  induction m generalizing s with
  | zero =>
    obtain rfl := Host.Outcome.next.inj h
    rw [Nat.zero_add]
  | succ m ih =>
    cases hs : M.step s with
    | next u =>
      rw [run_succ M m s u hs] at h
      rw [Nat.succ_add, run_succ M (m + n) s u hs, ih h]
    | fault r => simp [Host.Core.run, hs] at h
    | refused r => simp [Host.Core.run, hs] at h

/-- A command statement, performed as one step (R103). -/
theorem run_command {i : Instr} {s t : State} {p : List Stmt} (hr : s.rst = false)
    (hp : s.pending = hostEvents (.command i :: p))
    (h : exec i (s.setPending (hostEvents p)) = .next t) :
    Host.Core.run Sys2Proof.core 1 s = .next t :=
  run_succ Sys2Proof.core 0 s t (step_write hr hp (by
    rw [← h]
    exact cmdWrite_legal (decode_encode i) _))

@[simp] theorem rxPush_cfg (v : Byte) (s : State) : (rxPush v s).cfg = s.cfg :=
  rxPush_induction v s (P := fun t => t.cfg = s.cfg) (by simp) (by simp)

/-- Pushes leave RST and the parameters (R166). -/
theorem run_pushes_rst_cfg {bs : List Byte} {s t : State} {rest : List Event} (hr : s.rst = false)
    (hp : s.pending = bs.map (fun v => .host (.write 0x65 v)) ++ rest)
    (h : Host.Core.run Sys2Proof.core bs.length s = .next t) : t.rst = false ∧ t.cfg = s.cfg := by
  induction bs generalizing s with
  | nil =>
    obtain rfl := Host.Outcome.next.inj h
    exact ⟨hr, rfl⟩
  | cons v bs ih =>
    have hstep := step_push hr hp
    have hrun := (run_succ Sys2Proof.core bs.length _ _ hstep).symm.trans h
    simpa using ih (by simpa using hr) (by simp) hrun

/-- A step whose event is RXCLR: the length is zero (R161). -/
theorem step_rxclr {s : State} {rest : List Event} (hr : s.rst = false)
    (hp : s.pending = .host (.write 0x60 (encode .rxclr)) :: rest) :
    ∃ t, step s = .next t ∧ t.rst = false ∧ t.cfg = s.cfg ∧ t.pending = rest ∧ t.f = s.f ∧
      t.flen = 0x0000 :=
  ⟨_, step_write hr hp (cmdWrite_legal (decode_encode .rxclr) _), hr, rfl, rfl, rfl, rfl⟩

/-- A buffer that holds a frame's bytes in its first cells holds the frame. -/
theorem frameBytes_eq_of_cells {sh : Shape} {bs : List Byte} {s : State}
    (hlen : bs.length = frameSize sh)
    (hcells : ∀ (i : Fin 85) (h : i.val < bs.length), s.fbuf[i] = bs[i.val]) :
    frameBytes sh s = bs := by
  apply List.ext_getElem
  · rw [frameBytes_length, hlen]
  · intro i hi hbs
    have := frameSize_le sh
    rw [← hcells ⟨i, by omega⟩ hbs]
    simp [frameBytes]

/-- LDFRAME empties the length and pushes the sequence: FLEN counts it, and a sequence of the shape's
length is the frame in the buffer (R104, R161, R166). -/
theorem run_ldFrame {bs : List Byte} {s : State} {p : List Stmt} (hr : s.rst = false)
    (hp : s.pending = hostEvents (.ldFrame bs :: p)) :
    ∃ t : State, Host.Core.run Sys2Proof.core (bs.length + 1) s = .next t ∧ t.rst = false ∧
      t.cfg = s.cfg ∧ t.pending = hostEvents p ∧ t.f = s.f ∧
      t.flen.toNat = min bs.length 0xFFFF ∧
      ∀ sh, bs.length = frameSize sh → frameBytes sh t = bs := by
  have hpushes : hostEvents (.ldFrame bs :: p) =
      .host (.write 0x60 (encode .rxclr)) ::
        (bs.map (fun v => .host (.write 0x65 v)) ++ hostEvents p) := by
    simp [hostEvents, assemble, expand, cmdAccess, pushAccess, Function.comp_def]
  rw [hpushes] at hp
  obtain ⟨c, hclear, hcrst, hccfg, hcp, hcf, hcflen⟩ := step_rxclr hr hp
  obtain ⟨t, hrun, hrest, hflen, hcell, hf, -⟩ :=
    pushedSequenceLandsAtFlen bs c (hostEvents p) hcrst hcp
  obtain ⟨hrst, hcfg⟩ := run_pushes_rst_cfg hcrst hcp hrun
  refine ⟨t, (run_succ Sys2Proof.core bs.length s c hclear).trans hrun, hrst, hcfg.trans hccfg,
    hrest, hf.trans hcf, by simpa [hcflen] using hflen, fun sh hlen =>
      frameBytes_eq_of_cells hlen fun i hi => ?_⟩
  rw [hcell]
  simp [hcflen, hi]

/-! ## The transfer -/

/-- A frame valid in one buffer is valid in another that holds it, under the same CSUM_ALG (R152). -/
theorem validFrame_of_frameBytes_eq {sh : Shape} {s s' : State}
    (hcfg : s.cfg.csumAlg = s'.cfg.csumAlg) (hlen : s.flen.toNat = frameSize sh)
    (hframe : frameBytes sh s = frameBytes sh s') (hvalid : ValidFrame sh s') :
    ValidFrame sh s := by
  have hflen : s.flen = s'.flen := BitVec.eq_of_toNat_eq (hlen.trans hvalid.left.symm)
  obtain ⟨-, hverdict⟩ := rxCsum_and_verdict_congr hcfg hflen hframe
  rw [← verdict_eq_ok_iff, hverdict, verdict_of_validFrame hvalid]

/-- What a machine sends under SEAL and PACK: a valid frame, the image of the sealed registers, and
the registers are those before SEAL with their checksum in CHK (R150). -/
theorem exec_seal_pack {sh : Shape} {s t u : State} (hseal : exec (.seal sh) s = .next t)
    (hpack : exec (.pack sh) t = .next u) :
    ValidFrame sh u ∧ u.cfg = s.cfg ∧ frameBytes sh u = frameImage sh t ∧
      (∀ i : Fin 85, i.val < frameFields sh → t.f[i] = s.f[i]) ∧
      t.f[84] = csum s.cfg.csumAlg (fieldBytes sh s) := by
  obtain ⟨hchk, -, hf, -⟩ := exec_seal_outcome hseal
  obtain ⟨-, htcfg, -⟩ := exec_portUnchanged hseal
  obtain ⟨-, hucfg, -⟩ := exec_portUnchanged hpack
  exact ⟨validFrame_of_exec_pack (sealed_of_exec_seal hseal) hpack, hucfg.trans htcfg,
    exec_pack_frameBytes hpack, fun i hi => hf i (lt_chk_of_lt_frameFields hi), hchk⟩

/-- Settles O59: the sender's frame is valid, the receiver's buffer holds it, and RECV loads it whole. -/
theorem transferDeliversTheFields : Obligations.TransferDeliversTheFields := by
  intro sh s t u r hseal hpack hr hcfg hp
  obtain ⟨hsent, hucfg, hsentFrame, hfields, hchk⟩ := exec_seal_pack hseal hpack
  obtain ⟨v, hload, hrst, hvcfg, hvp, -, hvlen, hframe⟩ := run_ldFrame hr hp
  obtain ⟨w, hrecv, -⟩ := exec_answers (.recv sh) (v.setPending (hostEvents []))
  have hrun := (run_add hload).trans (run_command hrst hvp hrecv)
  have hlen := frameBytes_length sh u
  rw [hlen] at hrun hvlen
  have hsize := frameSize_le sh
  have hvalid : ValidFrame sh (v.setPending (hostEvents [])) :=
    validFrame_of_frameBytes_eq (by rw [State.setPending_cfg, hvcfg, hcfg, hucfg])
      (by rw [State.setPending_flen, hvlen]; omega) (hframe sh hlen) hsent
  have himage : frameImage sh t = frameImage sh w := by
    rw [frameImage_of_exec_recv hrecv hvalid, ← hsentFrame]
    exact (hframe sh hlen).symm
  obtain ⟨hwfields, hwchk⟩ := sameFields_of_frameImage_eq himage
  refine ⟨w, hrun, ?_, fun i hi => (hwfields i hi).trans (hfields i hi), hwchk.trans hchk⟩
  rw [exec_checksCsum_result (.inr rfl) hrecv, verdict_of_validFrame hvalid]

end Sys2Proof.Machine
end

section
/-! PROOFS. The CMD write: its step, its prologue, the two control commands, and that no command reads STATUS (R160 to R163, R168). -/

namespace Sys2Proof.Machine

open Sys2Proof.Claims

/-! ## No command reads STATUS or CMDLAST -/

/-- The operation writes RESULT whatever it held, and does the rest without reading it. -/
def OverwritesResult (op : State → State) : Prop :=
  ∀ (s : State) (r : Result), op (s.setResult r) = op s

theorem overwritesResult_complete : OverwritesResult complete := fun _ _ => rfl

theorem overwritesResult_raise (e : Result) : OverwritesResult (raise e) := fun _ _ => rfl

theorem overwritesResult_packBody (sh : Shape) : OverwritesResult (packBody sh) := fun _ _ => rfl

theorem overwritesResult_sealBody (sh : Shape) : OverwritesResult (sealBody sh) := fun _ _ => rfl

theorem overwritesResult_complete_loadFields (sh : Shape) :
    OverwritesResult (fun s => complete (loadFields sh s)) := fun _ _ => rfl

theorem overwritesResult_complete_setFlen (n : Half) :
    OverwritesResult (fun s => complete (s.setFlen n)) := fun _ _ => rfl

theorem OverwritesResult.checkLength {rest : State → State} (h : OverwritesResult rest)
    (sh : Shape) : OverwritesResult (checkLength sh rest) := by
  intro s r
  by_cases hlen : s.flen.toNat = frameSize sh
  · rw [checkLength_of_eq rest hlen, checkLength_of_eq rest (by simpa using hlen), h]
  · rw [checkLength_of_ne rest hlen, checkLength_of_ne rest (by simpa using hlen),
      overwritesResult_raise]

theorem OverwritesResult.checkCsum {rest : State → State} (h : OverwritesResult rest)
    (sh : Shape) : OverwritesResult (checkCsum sh rest) := by
  intro s r
  by_cases hc : rxCsum sh s = rxCheck sh s
  · rw [checkCsum_of_eq rest hc, checkCsum_of_eq rest (s := s.setResult r) hc]
    exact h (s.setCalc (rxCsum sh s)) r
  · rw [checkCsum_of_ne rest hc, checkCsum_of_ne rest (s := s.setResult r) hc]
    exact overwritesResult_raise _ (s.setCalc (rxCsum sh s)) r

/-- Every command but NOP is the whole prologue and then a body that overwrites RESULT. -/
theorem exec_overwritesResult {i : Instr} (hi : i ≠ .nop) :
    ∃ op, OverwritesResult op ∧ ∀ s, exec i s = .next (op (beginCommand (encode i) s)) := by
  obtain rfl | rfl | ⟨sh, rfl | rfl | rfl | rfl | rfl⟩ := instr_cases_by_shape i
  · exact absurd rfl hi
  · exact ⟨_, overwritesResult_complete_setFlen 0, fun _ => rfl⟩
  · exact ⟨_, overwritesResult_packBody sh, exec_pack sh⟩
  · exact ⟨_, overwritesResult_sealBody sh, exec_seal sh⟩
  · exact ⟨_, (overwritesResult_complete_loadFields sh).checkLength sh, exec_unpack sh⟩
  · exact ⟨_, (overwritesResult_complete.checkCsum sh).checkLength sh, exec_verify sh⟩
  · exact ⟨_, ((overwritesResult_complete_loadFields sh).checkCsum sh).checkLength sh,
      exec_recv sh⟩

/-- So is every CMD write but NOP's, of a legal byte or not. -/
theorem cmdWrite_overwritesResult {c : Byte} (hc : c ≠ 0x00) :
    ∃ op, OverwritesResult op ∧ ∀ s, cmdWrite c s = .next (op (beginCommand c s)) := by
  cases hd : decode c with
  | legal i =>
    obtain rfl := eq_encode_of_decode hd
    obtain ⟨op, hop, hexec⟩ := exec_overwritesResult (i := i) fun e => hc (e ▸ rfl)
    exact ⟨op, hop, fun s => (cmdWrite_legal hd s).trans (hexec s)⟩
  | illegal why => exact ⟨_, overwritesResult_raise .illegalCmd, cmdWrite_illegal hd⟩

/-- Settles O48: NOP reads nothing at all, and after any other command's prologue the two states differ
in RESULT alone, which its body overwrites. -/
theorem statusSteersNothing : Obligations.StatusSteersNothing := by
  intro c s t b r sh d h
  by_cases hc : c = 0x00
  · subst hc
    obtain rfl := Host.Outcome.next.inj h
    exact ⟨_, rfl, rfl, rfl, rfl, rfl, rfl, rfl, ⟨rfl, rfl, rfl, rfl, rfl⟩, (absurd rfl ·)⟩
  · obtain ⟨op, hop, hcmd⟩ := cmdWrite_overwritesResult hc
    obtain rfl := Host.Outcome.next.inj ((hcmd s).symm.trans h)
    have hsame : op (beginCommand c { s with cmdlast := b, result := r, shape := sh, done := d }) =
        op (beginCommand c s) := hop (beginCommand c s) r
    exact ⟨_, (hcmd _).trans (congrArg _ hsame), rfl, rfl, rfl, rfl, rfl, rfl,
      ⟨rfl, rfl, rfl, rfl, rfl⟩, fun _ => ⟨rfl, rfl⟩⟩

/-! ## The prologue and the dispatch -/

/-- A CMD write sets SHAPE to the byte's, and NOP's byte leaves it (R163). -/
theorem cmdWrite_shape {c : Byte} {s t : State} (h : cmdWrite c s = .next t) :
    t.shape = if c = 0x00 then s.shape else shapeOfByte c := by
  cases hd : decode c with
  | legal i =>
    rw [cmdWrite_legal hd] at h
    obtain ⟨-, -, hshape⟩ := exec_prologue h
    have hnop : c = 0x00 ↔ i = .nop :=
      (decode_eq_legal_iff (i := .nop)).symm.trans (by rw [hd, Decoded.legal.injEq])
    rw [hshape, ← eq_encode_of_decode hd, if_congr hnop rfl rfl]
  | illegal why =>
    rw [cmdWrite_illegal hd] at h
    obtain rfl := Host.Outcome.next.inj h
    have hne : c ≠ 0x00 := by
      rintro rfl
      cases hd
    rw [if_neg hne, raise_shape, beginCommand_shape]

/-- Settles O9: the dispatch is the decoder's, and the prologue is done on every path. -/
theorem cmdWriteRunsPrologueAndBody : Obligations.CmdWriteRunsPrologueAndBody := by
  intro c s
  obtain ⟨t, h, hcmd, hdone⟩ := cmdWrite_records c s
  refine ⟨fun i hd => cmdWrite_legal hd s, fun why hd => cmdWrite_illegal hd s, t, h, hcmd, hdone, ?_,
    memWrite_portUnchanged (a := 0x60) h⟩
  rw [cmdWrite_shape h, shapeOfByte_eq_ite]

/-- Settles O5: with RST released the step is the CMD write itself, which dispatches. -/
theorem stepRunsTheDecodedCommand : Obligations.StepRunsTheDecodedCommand := by
  intro s c rest hr hp
  have hstep : step s = cmdWrite c (s.setPending rest) := step_hostAccess hr hp
  exact ⟨fun i hd => hstep.trans (cmdWrite_legal hd _),
    fun why hd => hstep.trans (cmdWrite_illegal hd _)⟩

/-! ## NOP and RXCLR -/

theorem exec_nop (s : State) : exec .nop s = .next (recordCommand (encode .nop) s) := rfl

theorem exec_rxclr (s : State) :
    exec .rxclr s = .next (complete ((beginCommand (encode .rxclr) s).setFlen 0)) := rfl

/-- Settles O34: NOP is the part of the prologue that writes CMDLAST and DONE. -/
theorem nopRecordsItselfOnly : Obligations.NopRecordsItselfOnly := fun s =>
  ⟨_, exec_nop s, recordCommand_cmdlast s _, recordCommand_done s _, recordCommand_result s _,
    recordCommand_shape s _, recordCommand_f s _, recordCommand_fbuf s _, recordCommand_flen s _,
    recordCommand_calcReg s _, exec_portUnchanged (exec_nop s)⟩

/-- Settles O35: after the prologue RXCLR writes FLEN and RESULT alone. -/
theorem rxclrEmptiesTheLength : Obligations.RxclrEmptiesTheLength := fun s =>
  ⟨_, exec_rxclr s, rfl, rfl, complete_result _, rfl, rfl,
    statusByte_of_done (sh := .M) rfl rfl (complete_result _), rfl, rfl, rfl,
    exec_portUnchanged (exec_rxclr s)⟩

end Sys2Proof.Machine
end

section
/-! PROOFS. The host port's two maps over all 256 addresses, STATUS as a number, and what RXPUSH leaves for a later length check (R62, R164 to R166). -/

namespace Sys2Proof.Machine

open Sys2Proof.Claims

/-! ## Addresses -/

theorem fieldAddress_toNat (i : Fin 85) : (BitVec.ofNat 8 i).toNat = i := by
  rw [BitVec.toNat_ofNat]
  omega

theorem cellAddress_toNat (i : Fin 85) : (BitVec.ofNat 8 (0x80 + i)).toNat = 0x80 + i := by
  rw [BitVec.toNat_ofNat]
  omega

/-- A reserved address is none of those the port answers at (R62). -/
theorem reserved_address_unassigned {a : Byte} (h : Reserved a) :
    ¬ a.toNat ≤ 0x54 ∧ a ≠ 0x60 ∧ a ≠ 0x61 ∧ a ≠ 0x62 ∧ a ≠ 0x63 ∧ a ≠ 0x64 ∧ a ≠ 0x65 ∧
      ¬ (0x80 ≤ a.toNat ∧ a.toNat ≤ 0xD4) := by
  unfold Reserved at h
  bv_omega

theorem memRead_reserved {a : Byte} (h : Reserved a) (s : State) : memRead s a = 0x00 := by
  obtain ⟨h54, h60, h61, h62, h63, h64, h65, hcell⟩ := reserved_address_unassigned h
  rw [memRead, dif_neg h54, if_neg h60, if_neg h61, if_neg h62, if_neg h63, if_neg h64, if_neg h65,
    dif_neg hcell]

theorem memWrite_reserved {a : Byte} (h : Reserved a) (v : Byte) (s : State) :
    memWrite a v s = .next s := by
  obtain ⟨h54, h60, h61, h62, h63, h64, h65, hcell⟩ := reserved_address_unassigned h
  rw [memWrite, dif_neg h54, if_neg h60, if_neg (not_or.mpr ⟨h61, h62⟩), if_neg h63, if_neg h64,
    if_neg h65, dif_neg hcell]

/-! ## The read map and the write map -/

theorem toNat_append_eq_add {m n : Nat} (x : BitVec m) (y : BitVec n) :
    (x ++ y).toNat = 2 ^ n * x.toNat + y.toNat := by
  rw [BitVec.toNat_append, Nat.shiftLeft_eq, Nat.mul_comm, Nat.two_pow_add_eq_or_of_lt y.isLt]

/-- STATUS as the number its fields make (R36, R164). -/
theorem statusByte_toNat (s : State) : (statusByte s).toNat =
    8 * s.done.toNat + 4 * s.shape.bit.toNat + (resultCode s.result).toNat := by
  rw [statusByte, toNat_append_eq_add, toNat_append_eq_add, toNat_append_eq_add, BitVec.toNat_ofBool,
    BitVec.toNat_zero]
  omega

/-- Settles O36: the two banks and the reserved addresses by their ranges, the others one by one. -/
theorem readMap : Obligations.ReadMap := by
  refine fun s => ⟨fun i => ?_, rfl, rfl, rfl, rfl, rfl, rfl, fun i => ?_,
    fun a ha => memRead_reserved ha s, statusByte_toNat s⟩
  · have ha := fieldAddress_toNat i
    rw [memRead_field (by omega)]
    simp only [ha, Fin.getElem_fin]
  · have ha := cellAddress_toNat i
    rw [memRead_cell (by omega)]
    simp only [ha, Nat.add_sub_cancel_left, Fin.getElem_fin]

/-- Settles O37: the two banks and the reserved addresses by their ranges, the others one by one. -/
theorem writeMap : Obligations.WriteMap := by
  refine fun s v => ⟨fun i => ?_, rfl, rfl, rfl, rfl, rfl, rfl, fun i => ?_,
    fun a ha => memWrite_reserved ha v s⟩
  · have ha := fieldAddress_toNat i
    rw [memWrite_field (by omega), writeField]
    simp only [ha]
  · have ha := cellAddress_toNat i
    rw [memWrite_cell (by omega), writeCell]
    simp only [ha, Nat.add_sub_cancel_left]

/-! ## RXPUSH -/

/-- UNPACK, VERIFY and RECV of a wrong length report it (R182). -/
theorem exec_checksLength_framing {sh : Shape} {i : Instr} {s : State} (hi : ChecksLength sh i)
    (hlen : s.flen.toNat ≠ frameSize sh) :
    exec i s = .next (raise .framingError (beginCommand (encode i) s)) := by
  obtain rfl | rfl | rfl := hi
  · exact exec_unpack_framing hlen
  · exact exec_verify_framing hlen
  · exact exec_recv_framing hlen

theorem rxPush_fbuf_of_full {s : State} (h : 85 ≤ s.flen.toNat) (v : Byte) :
    (rxPush v s).fbuf = s.fbuf := by
  rw [rxPush, dif_neg (by omega), State.setFlen_fbuf]

/-- A push beyond the last cell leaves a length that is no frame's (R166). -/
theorem rxPush_flen_ne_frameSize {s : State} (h : 85 ≤ s.flen.toNat) (v : Byte) (sh : Shape) :
    (rxPush v s).flen.toNat ≠ frameSize sh := by
  have hsize := frameSize_le sh
  rw [rxPush_flen, satInc16_toNat]
  omega

/-- Settles O40: the counter saturates above every frame's length, and the push writes nothing else but
its cell. -/
theorem rxpushAppendsOrCounts : Obligations.RxpushAppendsOrCounts := by
  intro s v
  have hwrite : memWrite 0x65 v s = .next (rxPush v s) := rfl
  refine ⟨_, hwrite, by rw [rxPush_flen, satInc16_toNat], fun i => rxPush_cell v s i i.isLt,
    fun hfull => ⟨rxPush_fbuf_of_full hfull v, fun sh i hi => ?_⟩,
    ⟨rxPush_result v s, rxPush_shape v s, rxPush_done v s⟩, rxPush_f v s, rxPush_calcReg v s,
    rxPush_cmdlast v s, memWrite_portUnchanged hwrite⟩
  exact ⟨_, exec_checksLength_framing hi (rxPush_flen_ne_frameSize hfull v sh), raise_result _ _⟩

end Sys2Proof.Machine
end

section
/-! PROOFS. Errors: which checks report which result, in which order, and what an error leaves; and a step with nothing to do (R182 to R186, R193). -/

namespace Sys2Proof.Machine

open Sys2Proof.Claims

/-! ## Which check failed, and what it leaves -/

/-- UNPACK's one check is the length (R123, R124). -/
@[simp] theorem unpackBody_result (sh : Shape) (s : State) : (unpackBody sh s).result =
    if s.flen.toNat = frameSize sh then .ok else .framingError := by
  by_cases hlen : s.flen.toNat = frameSize sh
  · rw [unpackBody, checkLength_of_eq _ hlen, complete_result, if_pos hlen]
  · rw [unpackBody, checkLength_of_ne _ hlen, raise_result, if_neg hlen]

section outcomes
variable {sh : Shape} {s t : State} {i : Instr}

/-- VERIFY and RECV of the right length and a wrong checksum report it, with the recomputed one in CALC
(R183). -/
theorem exec_checksCsum_corrupt (hi : ChecksCsum sh i) (hlen : s.flen.toNat = frameSize sh)
    (hc : rxCsum sh s ≠ rxCheck sh s) :
    exec i s = .next (raise .corruptFrame ((beginCommand (encode i) s).setCalc (rxCsum sh s))) := by
  obtain rfl | rfl := hi
  · exact exec_verify_corrupt hlen hc
  · exact exec_recv_corrupt hlen hc

theorem verdict_eq_corruptFrame_iff :
    verdict sh s = .corruptFrame ↔ s.flen.toNat = frameSize sh ∧ rxCsum sh s ≠ rxCheck sh s := by
  refine ⟨fun hbad => ?_, fun ⟨hlen, hc⟩ => verdict_of_csum_ne hlen hc⟩
  by_cases hlen : s.flen.toNat = frameSize sh
  · refine ⟨hlen, fun hc => ?_⟩
    rw [verdict_of_validFrame ⟨hlen, hc⟩] at hbad
    cases hbad
  · rw [verdict_of_length_ne hlen] at hbad
    cases hbad

/-- A command other than NOP ends with OK, or with the error of the check that failed (R182, R183). -/
theorem exec_ok_or_error (h : exec i s = .next t) (hi : i ≠ .nop) :
    t.result = .ok ∨
    (∃ sh, ChecksLength sh i ∧ s.flen.toNat ≠ frameSize sh ∧
      t = raise .framingError (beginCommand (encode i) s)) ∨
    (∃ sh, ChecksCsum sh i ∧ s.flen.toNat = frameSize sh ∧ rxCsum sh s ≠ rxCheck sh s ∧
      t = raise .corruptFrame ((beginCommand (encode i) s).setCalc (rxCsum sh s))) := by
  obtain ⟨-, rfl⟩ | ⟨sh, -, rfl⟩ | ⟨sh, -, rfl⟩ | ⟨sh, -, -, rfl⟩ | hframing | hcorrupt |
    ⟨sh, -, -, -, rfl⟩ | ⟨sh, -, -, -, rfl⟩ := exec_cases h hi
  · exact .inl (complete_result _)
  · exact .inl (packBody_result _ sh)
  · exact .inl (sealBody_result _ sh)
  · exact .inl (complete_result _)
  · exact .inr (.inl hframing)
  · exact .inr (.inr hcorrupt)
  · exact .inl (complete_result _)
  · exact .inl (complete_result _)

theorem ne_nop_of_decode {c : Byte} (hc : c ≠ 0x00) (hd : decode c = .legal i) : i ≠ .nop := by
  rintro rfl
  exact hc (eq_encode_of_decode hd)

/-- A CMD write of any byte but NOP's ends with OK, with ILLEGAL_CMD where the byte names no command, or
with the error of the check that failed (R181 to R184). -/
theorem cmdWrite_ok_or_error {c : Byte} (h : cmdWrite c s = .next t) (hc : c ≠ 0x00) :
    t.result = .ok ∨ t.result = .illegalCmd ∨
    (∃ sh i, decode c = .legal i ∧ ChecksLength sh i ∧ s.flen.toNat ≠ frameSize sh ∧
      t = raise .framingError (beginCommand (encode i) s)) ∨
    (∃ sh i, decode c = .legal i ∧ ChecksCsum sh i ∧ s.flen.toNat = frameSize sh ∧
      rxCsum sh s ≠ rxCheck sh s ∧
      t = raise .corruptFrame ((beginCommand (encode i) s).setCalc (rxCsum sh s))) := by
  cases hd : decode c with
  | legal i =>
    rw [cmdWrite_legal hd] at h
    obtain hok | ⟨sh, hframing⟩ | ⟨sh, hcorrupt⟩ := exec_ok_or_error h (ne_nop_of_decode hc hd)
    · exact .inl hok
    · exact .inr (.inr (.inl ⟨sh, i, rfl, hframing⟩))
    · exact .inr (.inr (.inr ⟨sh, i, rfl, hcorrupt⟩))
  | illegal why =>
    obtain rfl := Host.Outcome.next.inj ((cmdWrite_illegal hd s).symm.trans h)
    exact .inr (.inl (raise_result _ _))

/-- The outcome behind a FRAMING_ERROR (R182). -/
theorem framing_of_cmdWrite {c : Byte} (h : cmdWrite c s = .next t) (hc : c ≠ 0x00)
    (hres : t.result = .framingError) :
    ∃ sh i, decode c = .legal i ∧ ChecksLength sh i ∧ s.flen.toNat ≠ frameSize sh ∧
      t = raise .framingError (beginCommand (encode i) s) := by
  obtain hok | hillegal | hframing | ⟨sh, i, -, -, -, -, rfl⟩ := cmdWrite_ok_or_error h hc
  · exact absurd (hok.symm.trans hres) (by decide)
  · exact absurd (hillegal.symm.trans hres) (by decide)
  · exact hframing
  · cases hres

/-- The checks behind a CORRUPT_FRAME (R183). -/
theorem corrupt_of_cmdWrite {c : Byte} (h : cmdWrite c s = .next t) (hc : c ≠ 0x00)
    (hres : t.result = .corruptFrame) :
    ∃ sh i, decode c = .legal i ∧ ChecksCsum sh i ∧ s.flen.toNat = frameSize sh ∧
      rxCsum sh s ≠ rxCheck sh s := by
  obtain hok | hillegal | ⟨sh, i, -, -, -, rfl⟩ | ⟨sh, i, hd, hi, hlen, hcsum, -⟩ :=
    cmdWrite_ok_or_error h hc
  · exact absurd (hok.symm.trans hres) (by decide)
  · exact absurd (hillegal.symm.trans hres) (by decide)
  · cases hres
  · exact ⟨sh, i, hd, hi, hlen, hcsum⟩

end outcomes

/-! ## The statements about errors -/

/-- Settles O44: of the outcomes of a CMD write, only that of a failed length check is a FRAMING_ERROR,
and it is the prologue and the error alone. -/
theorem framingErrorExactlyOnWrongLength : Obligations.FramingErrorExactlyOnWrongLength := by
  intro c s t h hc
  refine ⟨⟨fun hres => ?_, fun ⟨sh, i, hd, hi, hlen⟩ => ?_⟩, fun hres => ?_, fun u hu => ?_⟩
  · obtain ⟨sh, i, hd, hi, hlen, -⟩ := framing_of_cmdWrite h hc hres
    exact ⟨sh, i, hd, hi, hlen⟩
  · rw [cmdWrite_legal hd, exec_checksLength_framing hi hlen] at h
    obtain rfl := Host.Outcome.next.inj h
    exact raise_result _ _
  · obtain ⟨sh, i, -, -, -, rfl⟩ := framing_of_cmdWrite h hc hres
    exact ⟨rfl, rfl, rfl, rfl⟩
  · obtain rfl := Host.Outcome.next.inj hu
    exact recordCommand_result s _

/-- Settles O45: of the outcomes of a CMD write, only that of a failed checksum check is a CORRUPT_FRAME,
and beside the prologue and the error it writes CALC alone. -/
theorem corruptFrameExactlyOnWrongChecksum : Obligations.CorruptFrameExactlyOnWrongChecksum := by
  intro c s t h hc
  refine ⟨⟨corrupt_of_cmdWrite h hc, fun ⟨sh, i, hd, hi, hlen, hcsum⟩ => ?_⟩,
    fun sh hres hcmd => ?_⟩
  · rw [cmdWrite_legal hd, exec_checksCsum_corrupt hi hlen hcsum] at h
    obtain rfl := Host.Outcome.next.inj h
    exact raise_result _ _
  · obtain ⟨i, hd, hi⟩ : ∃ i, decode c = .legal i ∧ ChecksCsum sh i := by
      obtain hd | hd := hcmd
      · exact ⟨_, hd, .inl rfl⟩
      · exact ⟨_, hd, .inr rfl⟩
    rw [cmdWrite_legal hd] at h
    obtain ⟨hlen, hcsum⟩ :=
      verdict_eq_corruptFrame_iff.mp ((exec_checksCsum_result hi h).symm.trans hres)
    obtain rfl := Host.Outcome.next.inj ((exec_checksCsum_corrupt hi hlen hcsum).symm.trans h)
    exact ⟨rfl, rfl, rfl⟩

/-- Settles O46: each failing check, reached only past those before it, has its outcome, and a command
that ends with none of them ends with OK. -/
theorem firstFailingCheckDecides : Obligations.FirstFailingCheckDecides := by
  intro c s hc
  obtain ⟨t, h, -⟩ := cmdWrite_records c s
  refine ⟨t, h, fun hillegal => ?_, fun sh i hd hi hlen => ?_, fun sh i hd hi hlen hcsum => ?_,
    fun i hd hlen hcsum => ?_⟩
  · obtain ⟨why, hd⟩ := (illegalByte_iff_exists c).mp hillegal
    obtain rfl := Host.Outcome.next.inj ((cmdWrite_illegal hd s).symm.trans h)
    exact raise_result _ _
  · rw [cmdWrite_legal hd, exec_checksLength_framing hi hlen] at h
    obtain rfl := Host.Outcome.next.inj h
    exact ⟨rfl, rfl⟩
  · rw [cmdWrite_legal hd, exec_checksCsum_corrupt hi hlen hcsum] at h
    obtain rfl := Host.Outcome.next.inj h
    exact raise_result _ _
  · rw [cmdWrite_legal hd] at h
    obtain hok | ⟨sh, hi, hne, -⟩ | ⟨sh, hi, -, hne, -⟩ :=
      exec_ok_or_error h (ne_nop_of_decode hc hd)
    · exact hok
    · exact absurd (hlen sh hi) hne
    · exact absurd (hcsum sh hi) hne

/-- Settles O47: the results are constant, or functions of the length, or the verdict on the frame, and a
push has none. -/
theorem valuesAreNeverErrors : Obligations.ValuesAreNeverErrors := by
  refine ⟨fun sh s => ⟨_, _, _, exec_pack sh s, packBody_result _ sh, exec_seal sh s,
    sealBody_result _ sh, exec_rxclr s, complete_result _⟩, fun sh s s' hlen => ?_,
    fun sh s s' hlen hframe hcfg => ?_, fun s v => ?_⟩
  · refine ⟨_, _, exec_unpack sh s, exec_unpack sh s', ?_⟩
    rw [unpackBody_result, unpackBody_result, beginCommand_flen, beginCommand_flen, hlen]
  · obtain ⟨t, t', u, u', ht, ht', hu, hu', hverify, hrecv, -⟩ :=
      verdictDependsOnTheFrameAlone sh s s' hcfg hlen hframe
    exact ⟨t, t', u, u', ht, ht', hverify, hu, hu', hrecv⟩
  · obtain ⟨t, ht, -, -, hfull, hstatus, -⟩ := rxpushAppendsOrCounts s v
    refine ⟨t, ht, hstatus, fun h85 => ?_⟩
    obtain ⟨-, hframing⟩ := hfull h85
    exact hframing

/-! ## A step with nothing to do -/

/-- Settles O7: with no event to take a step is idle. -/
theorem idleStepHoldsState : Obligations.IdleStepHoldsState := fun _ => step_idle

end Sys2Proof.Machine
end

section
/-! PROOFS. Reset and the hazards of the host: RST, DONE, stale checksums, and what the receiver accepts (R200 to R206). -/

namespace Sys2Proof.Machine

open Sys2Proof.Claims

/-! ## RST -/

/-- While RST is asserted a host access is turned away (R201). -/
theorem step_accessInReset {s : State} {a : Access} {rest : List Event} (hr : s.rst = true)
    (hp : s.pending = .host a :: rest) : step s = .next (accessInReset a (s.setPending rest)) :=
  (step_event hp).trans (if_pos hr)

/-- Settles O11: the reset state after the assertion, an access turned away, and RST alone at the release. -/
theorem rstResetsAndShutsThePort : Obligations.RstResetsAndShutsThePort := by
  refine fun s rest => ⟨fun hp => ?_, fun a v hr hp => ?_, fun a hr hp => ?_, fun hp => ?_⟩
  · exact ⟨_, step_event hp, controlAtReset_assertRst _, rfl, rfl, fun hz =>
      ⟨assertRst_f_of_zero hz, assertRst_fbuf_of_zero hz⟩⟩
  · exact ⟨_, step_accessInReset hr hp, ⟨rfl, rfl, rfl, rfl, ⟨rfl, rfl, rfl⟩, rfl⟩, rfl, hr, rfl⟩
  · exact ⟨_, _, step_accessInReset hr hp, ⟨rfl, rfl, rfl, rfl, ⟨rfl, rfl, rfl⟩, rfl⟩, rfl, hr, rfl⟩
  · exact ⟨_, step_event hp, ⟨rfl, rfl, rfl, rfl, ⟨rfl, rfl, rfl⟩, rfl⟩, rfl, rfl⟩

/-- Settles O12: besides an RST assertion only a CMD write changes STATUS, and it sets DONE. -/
theorem onlyRstClearsDone : Obligations.OnlyRstClearsDone := by
  intro s t h hset hclear
  have hchanged : ¬StatusUnchanged s t := fun ⟨_, _, hdone⟩ => by simp [hset, hclear] at hdone
  obtain hassert | ⟨c, rest, -, -, hdone⟩ := statusWrittenOnlyByCommands s t h hchanged
  · exact hassert
  · simp [hclear] at hdone

/-! ## Stale checksums -/

section stale
variable {sh : Shape} {s t : State}

theorem fieldBytes_setF_set (sh : Shape) (s : State) {p : Nat} (hp : p < 85) (v : Byte) :
    fieldBytes sh (s.setF (s.f.set p v)) = (fieldBytes sh s).set p v := by
  rw [fieldBytes, State.setF_f, Vector.toList_set, List.take_set]
  rfl

/-- A sequence of the shape's non-checksum bytes has a length that P2 speaks of (R140). -/
theorem frameFields_eq_or (sh : Shape) : frameFields sh = 4 ∨ frameFields sh = 84 := by
  cases sh with
  | M => exact .inr rfl
  | S => exact .inl rfl

/-- P2 in the registers: one changed field changes the checksum of the fields (R140). -/
theorem fieldCsum_setF_set_ne (hp2 : DetectsSingleByte (csum s.cfg.csumAlg)) {p : Nat} (hp : p < 85)
    (hin : p < frameFields sh) {v : Byte} (hv : v ≠ s.f[p]) :
    fieldCsum sh (s.setF (s.f.set p v)) ≠ fieldCsum sh s := by
  have hlen := fieldBytes_length sh s
  have hv : v ≠ (fieldBytes sh s)[p] := by rwa [fieldBytes_getElem sh s p (hlen ▸ hin) hp]
  rw [fieldCsum, State.setF_cfg, fieldBytes_setF_set]
  exact (hp2 _ _ p (hlen.symm ▸ frameFields_eq_or sh) (differOnlyAt_set (hlen ▸ hin) hv)).symm

/-- A field changed after SEAL breaks the seal: CHK holds the old checksum (R204). -/
theorem not_sealed_of_changed_field (hp2 : DetectsSingleByte (csum s.cfg.csumAlg))
    (hs : Sealed sh s) {p : Nat} (hp : p < 85) (hin : p < frameFields sh) {v : Byte}
    (hv : v ≠ s.f[p]) : ¬Sealed sh (s.setF (s.f.set p v)) := by
  have hchk : chkReg (s.setF (s.f.set p v)) = chkReg s :=
    Vector.getElem_set_ne hp (by decide) (lt_chk_of_lt_frameFields hin).ne
  rw [Sealed, hchk, hs]
  exact (fieldCsum_setF_set_ne hp2 hp hin hv).symm

/-- The verdict on the frame of fields that are not sealed (R204). -/
theorem verdict_of_exec_pack_of_not_sealed (hs : ¬Sealed sh s) (h : exec (.pack sh) s = .next t) :
    verdict sh t = .corruptFrame := by
  obtain rfl := Host.Outcome.next.inj ((exec_pack sh s).symm.trans h)
  refine verdict_of_csum_ne (packBody_flen_toNat sh _) ?_
  rw [rxCheck_packBody, chkReg_beginCommand, rxCsum, rxBytes_packBody, packBody_cfg]
  exact Ne.symm hs

/-- RECV that reports an error loads nothing (R148, R149). -/
theorem exec_recv_error {r : Result} (h : exec (.recv sh) s = .next t) (hv : verdict sh s = r)
    (hr : r ≠ .ok) : t.result = r ∧ t.f = s.f :=
  ⟨(exec_checksCsum_result (.inr rfl) h).trans hv,
    exec_recv_keeps h fun hvalid => hr (hv.symm.trans (verdict_of_validFrame hvalid))⟩

end stale

/-- Settles O30: the changed field breaks the seal, so PACK's frame is corrupt and RECV loads nothing. -/
theorem staleChecksumIsRejected : Obligations.StaleChecksumIsRejected := by
  intro sh s t p v hp2 hseal hin hv
  obtain ⟨-, hcfg, -⟩ := exec_portUnchanged hseal
  have hstale := not_sealed_of_changed_field (hcfg ▸ hp2) (sealed_of_exec_seal hseal) p.isLt hin hv
  obtain ⟨u, hpack, -⟩ := exec_answers (.pack sh) (t.setF (t.f.set p v))
  obtain ⟨w, hrecv, -⟩ := exec_answers (.recv sh) u
  obtain ⟨hres, hf⟩ := exec_recv_error hrecv (verdict_of_exec_pack_of_not_sealed hstale hpack)
    (by decide)
  obtain ⟨-, -, -, -, -, -, huf, -⟩ := exec_pack_outcome hpack
  exact ⟨u, w, hpack, hrecv, hres, hf.trans huf⟩

/-! ## What the receiver accepts -/

/-- The checksum check on a buffer that holds the frame `bs`: the byte after the fields is the checksum
of those before it (R183, R202). -/
theorem rxCsum_eq_rxCheck_iff {sh : Shape} {s : State} {bs : List Byte}
    (hframe : frameBytes sh s = bs) : rxCsum sh s = rxCheck sh s ↔
      bs[frameFields sh]? = some (csum s.cfg.csumAlg (bs.take (frameFields sh))) := by
  have hlen := rxBytes_length sh s
  rw [frameBytes_eq_append] at hframe
  rw [← hframe, List.take_left' hlen, ← rxCsum, ← hlen, List.getElem?_concat_length,
    Option.some_inj, eq_comm]

/-- LDFRAME and then a command: the command runs on the fields as they were, with the sequence's length
in FLEN and, where that is the shape's, the sequence in the buffer (R103, R104). -/
theorem run_ldFrame_command {bs : List Byte} {i : Instr} {s : State} (hr : s.rst = false)
    (hp : s.pending = hostEvents [.ldFrame bs, .command i]) :
    ∃ u t : State, Host.Core.run Sys2Proof.core (bs.length + 2) s = .next t ∧ exec i u = .next t ∧
      u.cfg = s.cfg ∧ u.f = s.f ∧ u.flen.toNat = min bs.length 0xFFFF ∧
      ∀ sh, bs.length = frameSize sh → frameBytes sh u = bs := by
  obtain ⟨u, hload, hrst, hcfg, hup, huf, hulen, hframe⟩ := run_ldFrame hr hp
  obtain ⟨t, hexec, -⟩ := exec_answers i (u.setPending (hostEvents []))
  exact ⟨u.setPending (hostEvents []), t, (run_add hload).trans (run_command hrst hup hexec), hexec,
    hcfg, huf, hulen, hframe⟩

/-- Settles O58: LDFRAME leaves the sequence's length in FLEN and a whole frame in the buffer, and RECV's
outcome is the verdict on them. -/
theorem receiveAcceptsExactlyTheValidFrames : Obligations.ReceiveAcceptsExactlyTheValidFrames := by
  intro sh bs s hr hp
  obtain ⟨u, t, hrun, hrecv, hcfg, huf, hulen, hframe⟩ := run_ldFrame_command hr hp
  have hsize := frameSize_le sh
  rw [← hcfg, ← huf]
  refine ⟨t, hrun, fun hlen => ?_, fun hlen hc => ?_, fun hlen hc => ?_⟩
  · have hne : u.flen.toNat ≠ frameSize sh := by omega
    exact exec_recv_error hrecv (verdict_of_length_ne hne) (by decide)
  · have heq : u.flen.toNat = frameSize sh := by omega
    have hbad : rxCsum sh u ≠ rxCheck sh u := mt (rxCsum_eq_rxCheck_iff (hframe sh hlen)).mp hc
    exact exec_recv_error hrecv (verdict_of_csum_ne heq hbad) (by decide)
  · have heq : u.flen.toNat = frameSize sh := by omega
    have hvalid : ValidFrame sh u := ⟨heq, (rxCsum_eq_rxCheck_iff (hframe sh hlen)).mpr hc⟩
    exact ⟨(exec_checksCsum_result (.inr rfl) hrecv).trans (verdict_of_validFrame hvalid),
      (frameImage_of_exec_recv hrecv hvalid).trans (hframe sh hlen)⟩

end Sys2Proof.Machine
end
